-- ==== Sys2Proof/Word.lean ====
section
/-! DEFINITION. The widths of the block (spec/00_scope.md R9, R13; spec/20_memory.md R70, R74): every quantity is
unsigned, and a byte space is a list of bytes, lowest offset first. -/

namespace Sys2Proof

/-- One byte (u8). -/
abbrev Byte := BitVec 8

/-- One 16-bit quantity (u16): the SETUP parameters, the transfer counters, the idle registers. -/
abbrev Word16 := BitVec 16

/-- A USB device address, 0 to 127 (R41, R204). -/
abbrev UsbAddr := BitVec 7

/-- An endpoint number (R40: 4 bits). -/
abbrev EpNum := BitVec 4

/-- A rectangular array indexed by row and column, row 0 first (R32, R33, R54). -/
abbrev Grid (α : Type) := List (List α)

end Sys2Proof
end

