-- ==== Sys2Proof/Syntax.lean ====
section
/-! DEFINITION. The operations of the block: ONE constructor of Instr per row of spec/opcode_table.json
(spec/30_encoding.md R100, R101, R118). The 27 rows of format SETUP8 are the control requests, whose operands are
the fields of the SETUP packet that their row leaves free; the other 38 rows have no encoding (R100) and are
selected by state (events, handler, phase and main-loop steps), by the environment (moves) or by name
(primitives). -/

namespace Sys2Proof

/-- The direction of a control request (spec/00_scope.md, glossary; spec/40 R152). -/
inductive Direction
  | d2h   -- device-to-host: a control read
  | h2d   -- host-to-device: a control write
deriving DecidableEq, Repr, Inhabited

/-- The pin primitives of spec/46 R301, the three operations of the one table row
"set_direction/set_level/read_level". -/
inductive PinOp
  /-- `set_direction(row r, d)`: true is OUT, false is IN. -/
  | setDirection (r : Nat) (out : Bool)
  /-- `set_level(row r, l)`. -/
  | setLevel (r : Nat) (level : Bool)
  /-- `read_level(col c)`. -/
  | readLevel (c : Nat)
deriving DecidableEq, Repr, Inhabited

/-- The SetupRequest latch `rq` (spec/10 R21): the five fields of the SETUP packet. -/
structure SetupRequest where
  /-- bmRequestType, byte 0. -/
  type : Byte
  /-- bRequest, byte 1. -/
  req : Byte
  /-- wValue, bytes 2 (low) and 3 (high). -/
  value : Word16
  /-- wIndex, bytes 4 and 5. -/
  index : Word16
  /-- wLength, bytes 6 and 7. -/
  length : Word16
deriving DecidableEq, Repr, Inhabited

/-- `xf_src` (spec/10 R22): the byte source of a chunked data stage (spec/43 R242). -/
inductive XferSource
  | dev       -- the device descriptor
  | cfgTree   -- CFG at offset 0: the configuration blob
  | cfgHid    -- CFG at offset 18: the HID descriptor
  | rpt       -- the report descriptor
  | krs       -- the 8 report bytes of krs
deriving DecidableEq, Repr, Inhabited

/-- `post` (spec/10 R22): the effect of a host-to-device request that its status stage applies. -/
inductive PostEffect
  | none
  | addr (a : UsbAddr)
  | cfg (v : Byte)
  | idle (d : Word16)
  | proto (b : Bool)
deriving DecidableEq, Repr, Inhabited

/-- The column "format" of spec/opcode_table.json (R118 (e)). -/
inductive Format
  | setup8 | event | handlerStep | dispatchPhaseStep | mainStep | envMove | primitive
deriving DecidableEq, Repr

/-- The operations of the block, one constructor per row of spec/opcode_table.json, in its order.
`value`, `index`, `length` are wValue, wIndex, wLength of R101; `itf` is bit 0 of the request type where the row
leaves it free (GET_DESCRIPTOR: false 0x80, true 0x81); `dindex` is wValue's low byte, `t` its high byte. -/
inductive Instr
  -- the class table, R107
  | getReport (value index length : Word16)
  | getIdle (value index length : Word16)
  | getProtocol (value index length : Word16)
  | setReport (value index length : Word16)
  | setIdle (value index length : Word16)
  | setProtocol (value index length : Word16)
  -- the standard table, R108
  | getStatusDevice (value index length : Word16)
  | getStatusInterface (value index length : Word16)
  | getStatusEndpoint (value index length : Word16)
  | clearFeatureDevice (value index length : Word16)
  | clearFeatureInterface (value index length : Word16)
  | clearFeatureEndpoint (value index length : Word16)
  | setFeatureDevice (value index length : Word16)
  | setFeatureInterface (value index length : Word16)
  | setFeatureEndpoint (value index length : Word16)
  | setAddress (value index length : Word16)
  | getDescriptorDevice (itf : Bool) (dindex : Byte) (index length : Word16)
  | getDescriptorConfiguration (itf : Bool) (dindex : Byte) (index length : Word16)
  | getDescriptorHid (itf : Bool) (dindex : Byte) (index length : Word16)
  | getDescriptorReport (itf : Bool) (dindex : Byte) (index length : Word16)
  | getDescriptorOther (itf : Bool) (t dindex : Byte) (index length : Word16)
  | getConfiguration (value index length : Word16)
  | setConfiguration (value index length : Word16)
  | getInterface (value index length : Word16)
  | setInterface (value index length : Word16)
  | synchFrame (value index length : Word16)
  -- the default row, R110
  | unmatched (type req : Byte) (value index length : Word16)
  -- event and handler steps, R370, R341, R281, R180
  | por
  | eor
  | sof
  | comm
  -- the dispatcher's phase steps, R241, R244, R245, R246, R204, R263
  | pFxTx
  | pInLoop
  | pStOut
  | pStIn
  | pAddrAck
  | pOutDrain
  -- the main loop's steps, R304, R311, R285
  | scanRow
  | getState
  | reportSend
  -- the environment's moves, R160 to R168
  | hostSetup (b : List Byte)
  | hostIn0
  | hostOut (p : List Byte)
  | busReset
  | sofTick
  | spuriousComm
  | hostInk
  | keys (r c : Nat) (v : Bool)
  | hostStalled
  -- the transport and pin primitives, R142 to R156, R301
  | selectEndpoint (n : EpNum)
  | isSetupPending
  | isSendReady
  | isReceivePending
  | fifoRead
  | fifoWrite (b : Byte)
  | clearSetupFlag
  | clearSendFlag
  | clearReceiveFlag
  | stall
  | syncStatusStage (dir : Direction)
  | writeAddress (a : UsbAddr)
  | configureEndpoint (e : EpNum)
  | kbdReady
  | kbdRearm
  | setDirectionSetLevelReadLevel (op : PinOp)
deriving DecidableEq, Repr, Inhabited

/-- The row's "format" (R118). -/
def Instr.format : Instr → Format
  | .getReport _ _ _ | .getIdle _ _ _ | .getProtocol _ _ _ | .setReport _ _ _ | .setIdle _ _ _
  | .setProtocol _ _ _ | .getStatusDevice _ _ _ | .getStatusInterface _ _ _ | .getStatusEndpoint _ _ _
  | .clearFeatureDevice _ _ _ | .clearFeatureInterface _ _ _ | .clearFeatureEndpoint _ _ _
  | .setFeatureDevice _ _ _ | .setFeatureInterface _ _ _ | .setFeatureEndpoint _ _ _ | .setAddress _ _ _
  | .getDescriptorDevice _ _ _ _ | .getDescriptorConfiguration _ _ _ _ | .getDescriptorHid _ _ _ _
  | .getDescriptorReport _ _ _ _ | .getDescriptorOther _ _ _ _ _ | .getConfiguration _ _ _
  | .setConfiguration _ _ _ | .getInterface _ _ _ | .setInterface _ _ _ | .synchFrame _ _ _
  | .unmatched _ _ _ _ _ => .setup8
  | .por => .event
  | .eor | .sof | .comm => .handlerStep
  | .pFxTx | .pInLoop | .pStOut | .pStIn | .pAddrAck | .pOutDrain => .dispatchPhaseStep
  | .scanRow | .getState | .reportSend => .mainStep
  | .hostSetup _ | .hostIn0 | .hostOut _ | .busReset | .sofTick | .spuriousComm | .hostInk | .keys _ _ _
  | .hostStalled => .envMove
  | .selectEndpoint _ | .isSetupPending | .isSendReady | .isReceivePending | .fifoRead | .fifoWrite _
  | .clearSetupFlag | .clearSendFlag | .clearReceiveFlag | .stall | .syncStatusStage _ | .writeAddress _
  | .configureEndpoint _ | .kbdReady | .kbdRearm | .setDirectionSetLevelReadLevel _ => .primitive

/-- Is the operation a step that an agent takes of its own (R11, R344)? A request is run inside the COMM entry step
(R180) and a primitive inside the rule that calls it (R140): neither is a step. -/
def Instr.isAgentStep (i : Instr) : Bool :=
  match i.format with
  | .setup8 | .primitive => false
  | .event | .handlerStep | .dispatchPhaseStep | .mainStep | .envMove => true

/-- Is the operation a control request, the only kind with an encoding (R100)? -/
def Instr.isRequest (i : Instr) : Bool := i.format == .setup8

end Sys2Proof
end

