-- ==== Sys2Proof/Config.lean ====
section
/-! DEFINITION. The implementation parameters of spec/00_scope.md R7 and the free values: the draws of the
environment and the values the spec leaves unspecified. A free value is an opaque constant applied to a counter of
State, so nothing can be proved of it. -/

namespace Sys2Proof

/-- The OPEN parameters of R7, held as one constant record (R56; log entry 3). REPORT_DESC_LEN is the length of
`reportDesc`; T_SETTLE is timing only and no rule depends on it (U23). -/
structure Params where
  /-- ROWS -/
  rows : Nat
  /-- COLS -/
  cols : Nat
  /-- LAYOUT[r][c] -/
  layout : Grid Byte
  /-- ACTIVE_LEVEL: the pin level that means "driven" and "pressed"; false is low. -/
  activeLevel : Bool
  /-- DEBOUNCE_SCANS -/
  debounceScans : Nat
  /-- KBD_EP -/
  kbdEp : EpNum
  /-- DEV_DESC, the space DEV -/
  devDesc : List Byte
  /-- CFG_BLOB, the space CFG -/
  cfgBlob : List Byte
  /-- REPORT_DESC, the space RPT -/
  reportDesc : List Byte
deriving DecidableEq, Repr

namespace Config

/-- EP0_SIZE (R7): the maximum packet of endpoint 0 and the capacity of `fifo0` (R147). -/
abbrev ep0Size : Nat := 64
/-- KBD_REPORT_LEN (R7): the boot report's length and the capacity of `kbd_fifo` (R147). -/
abbrev kbdReportLen : Nat := 8
/-- MAX_KEYS (R7). -/
abbrev maxKeys : Nat := 6
/-- DEV_DESC_LEN (R7). -/
abbrev devDescLen : Nat := 18
/-- CFG_TOTAL_LEN = 9 + 9 + 9 + 7 (R7). -/
abbrev cfgTotalLen : Nat := 34
/-- HID_DESC_LEN (R7). -/
abbrev hidDescLen : Nat := 9
/-- HID_DESC_OFFSET = 9 + 9 (R7). -/
abbrev hidDescOffset : Nat := 18
/-- IDLE_DEFAULT (R7): 500 frame ticks. -/
abbrev idleDefault : Word16 := 500
/-- MOD_FIRST (R7). -/
abbrev modFirst : Nat := 0xE0
/-- MOD_LAST (R7). -/
abbrev modLast : Nat := 0xE7
/-- MAX_CFG_VALUE (R7). -/
abbrev maxCfgValue : Nat := 1

/-- The byte a `fifo_read` of an empty FIFO returns (R146, U13): any value. -/
opaque freeByte : Nat → Byte
/-- The answer of `configure_endpoint`, drawn at each call (R154, U9): any value. -/
opaque freeCfgOk : Nat → Bool
/-- `ep_sel` after `configure_endpoint` and after POR (R154, R40, U11): any value. -/
opaque freeEpSel : Nat → EpNum
/-- `rq` after POR (R21, U10): any value. -/
opaque freeRequest : Nat → SetupRequest
/-- `xf_src` after POR (R22, U10): any value. -/
opaque freeSource : Nat → XferSource
/-- A 16-bit register after POR (`xf_ptr`, `xf_rem`; U10), the second argument telling them apart: any value. -/
opaque freeWord : Nat → Nat → Word16
/-- `xf_zlp` after POR (U10): any value. -/
opaque freeBit : Nat → Bool
/-- `post` after POR (U10): any value. -/
opaque freePost : Nat → PostEffect
/-- `fx` after POR (U10); at most its first two bytes are used: any value. -/
opaque freeFx : Nat → List Byte
/-- `row_lvl[r]` after POR (R53, U12), the second argument being r: any value. -/
opaque freeLevel : Nat → Nat → Bool
/-- The move taken at a turn for which none is placed (R344, U17): any order of any moves. -/
opaque freeMove : Nat → Instr

/-- A byte of DEV, CFG, RPT or LAYOUT in the parameters that reset takes (R5, R7: OPEN): the number of the space
(0 to 3), then the offset. -/
opaque openByte : Nat → Nat → Byte

/-- `n` open bytes of a space. -/
def openBytes (space n : Nat) : List Byte := (List.range n).map (openByte space)

/-- The parameters State.reset takes (log entry 4). The defaults of R7 where it gives one; ROWS, COLS and
REPORT_DESC_LEN are example sizes of spec/95 P1, and the bytes are open. -/
def defaultParams : Params where
  rows := 2
  cols := 2
  layout := [openBytes 3 2, (List.range 2).map fun c => openByte 3 (2 + c)]
  activeLevel := false
  debounceScans := 1
  kbdEp := 1
  devDesc := openBytes 0 devDescLen
  cfgBlob := openBytes 1 cfgTotalLen
  reportDesc := openBytes 2 63

end Config

/-- A grid of `rows` rows of `cols` cells each. -/
abbrev Grid.Shaped {α : Type} (g : Grid α) (rows cols : Nat) : Prop :=
  g.length = rows ∧ ∀ row ∈ g, row.length = cols

/-- The parameters meet the ranges R7 gives them. -/
abbrev Params.wf (p : Params) : Prop :=
  1 ≤ p.rows ∧ 1 ≤ p.cols ∧ Grid.Shaped p.layout p.rows p.cols ∧ 1 ≤ p.debounceScans ∧ p.kbdEp ≠ 0 ∧
  p.devDesc.length = Config.devDescLen ∧ p.cfgBlob.length = Config.cfgTotalLen ∧
  1 ≤ p.reportDesc.length ∧ p.reportDesc.length ≤ 65535

end Sys2Proof
end

