-- ==== Sys2Proof/WellFormed.lean ====
section
/-! DEFINITION. Which terms of Instr stand for an operation of the block: operands inside the ranges the spec gives
them, and requests that the encoding tables send to their own row (spec/30 R107 to R110, R118; spec/40 R154, R160,
R162, R167; spec/46 R301). -/

namespace Sys2Proof

/-- The keys (`rq.type`, `rq.req`) of the rows of the class table (R107) and of the standard table (R108). -/
def rowKeys : List (Byte × Byte) :=
  [(0xA1, 0x01), (0xA1, 0x02), (0xA1, 0x03), (0x21, 0x09), (0x21, 0x0A), (0x21, 0x0B)] ++
  [(0x80, 0x00), (0x81, 0x00), (0x82, 0x00), (0x00, 0x01), (0x01, 0x01), (0x02, 0x01)] ++
  [(0x00, 0x03), (0x01, 0x03), (0x02, 0x03), (0x00, 0x05), (0x80, 0x06), (0x81, 0x06)] ++
  [(0x80, 0x08), (0x00, 0x09), (0x81, 0x0A), (0x01, 0x0B), (0x82, 0x0C)]

/-- The four descriptor types with a row of their own (R106). -/
def supportedTypes : List Byte := [0x01, 0x02, 0x21, 0x22]

/-- The term stands for an operation of a block with the parameters `p`. -/
def Instr.wf (p : Params) : Instr → Bool
  | .getDescriptorOther _ t _ _ _ => !supportedTypes.contains t
  | .unmatched type req _ _ _ => !rowKeys.contains (type, req)
  | .hostSetup b => b.length == 8
  | .hostOut b => decide (b.length ≤ Config.ep0Size)
  | .keys r c _ => decide (r < p.rows) && decide (c < p.cols)
  | .configureEndpoint e => e == 0 || e == p.kbdEp
  | .setDirectionSetLevelReadLevel (.setDirection r _) => decide (r < p.rows)
  | .setDirectionSetLevelReadLevel (.setLevel r _) => decide (r < p.rows)
  | .setDirectionSetLevelReadLevel (.readLevel c) => decide (c < p.cols)
  | .getReport _ _ _ | .getIdle _ _ _ | .getProtocol _ _ _ | .setReport _ _ _ | .setIdle _ _ _
  | .setProtocol _ _ _ | .getStatusDevice _ _ _ | .getStatusInterface _ _ _ | .getStatusEndpoint _ _ _
  | .clearFeatureDevice _ _ _ | .clearFeatureInterface _ _ _ | .clearFeatureEndpoint _ _ _
  | .setFeatureDevice _ _ _ | .setFeatureInterface _ _ _ | .setFeatureEndpoint _ _ _ | .setAddress _ _ _
  | .getDescriptorDevice _ _ _ _ | .getDescriptorConfiguration _ _ _ _ | .getDescriptorHid _ _ _ _
  | .getDescriptorReport _ _ _ _ | .getConfiguration _ _ _ | .setConfiguration _ _ _ | .getInterface _ _ _
  | .setInterface _ _ _ | .synchFrame _ _ _
  | .por | .eor | .sof | .comm | .pFxTx | .pInLoop | .pStOut | .pStIn | .pAddrAck | .pOutDrain
  | .scanRow | .getState | .reportSend | .hostIn0 | .busReset | .sofTick | .spuriousComm | .hostInk
  | .hostStalled | .selectEndpoint _ | .isSetupPending | .isSendReady | .isReceivePending | .fifoRead
  | .fifoWrite _ | .clearSetupFlag | .clearSendFlag | .clearReceiveFlag | .stall | .syncStatusStage _
  | .writeAddress _ | .kbdReady | .kbdRearm => true

end Sys2Proof
end

