-- ==== Sys2Proof/Decode.lean ====
section
/-! DEFINITION. Decoding a SETUP packet (spec/30 R101 to R110, spec/41 R182 to R185) and encoding a request. The
class table is searched first, then the standard table (R109); a packet that no row selects is `unmatched`
(R110). Bytes that are not exactly eight are rejected by name. -/

namespace Sys2Proof

/-- `{hi, lo}` of R9, R72: the 16-bit value of two bytes, the one that arrives first being the low one. -/
def u16 (lo hi : Byte) : Word16 := hi ++ lo

/-- `v[7:0]`. -/
def loByte (v : Word16) : Byte := v.extractLsb' 0 8

/-- `v[15:8]`. -/
def hiByte (v : Word16) : Byte := v.extractLsb' 8 8

/-- The five fields of a packet (R101, R182). -/
def assemble (b0 b1 b2 b3 b4 b5 b6 b7 : Byte) : SetupRequest where
  type := b0
  req := b1
  value := u16 b2 b3
  index := u16 b4 b5
  length := u16 b6 b7

/-- CLASS_LOOKUP (R183): the row of the class table (R107) with the request's key. -/
def classLookup (r : SetupRequest) : Option Instr :=
  if r.type = 0xA1 ∧ r.req = 0x01 then some (.getReport r.value r.index r.length)
  else if r.type = 0xA1 ∧ r.req = 0x02 then some (.getIdle r.value r.index r.length)
  else if r.type = 0xA1 ∧ r.req = 0x03 then some (.getProtocol r.value r.index r.length)
  else if r.type = 0x21 ∧ r.req = 0x09 then some (.setReport r.value r.index r.length)
  else if r.type = 0x21 ∧ r.req = 0x0A then some (.setIdle r.value r.index r.length)
  else if r.type = 0x21 ∧ r.req = 0x0B then some (.setProtocol r.value r.index r.length)
  else none

/-- The five GET_DESCRIPTOR rows (R106, R108), by the descriptor type `rq.value[15:8]`. -/
def descriptorRow (itf : Bool) (r : SetupRequest) : Instr :=
  if hiByte r.value = 0x01 then .getDescriptorDevice itf (loByte r.value) r.index r.length
  else if hiByte r.value = 0x02 then .getDescriptorConfiguration itf (loByte r.value) r.index r.length
  else if hiByte r.value = 0x21 then .getDescriptorHid itf (loByte r.value) r.index r.length
  else if hiByte r.value = 0x22 then .getDescriptorReport itf (loByte r.value) r.index r.length
  else .getDescriptorOther itf (hiByte r.value) (loByte r.value) r.index r.length

/-- STANDARD_LOOKUP (R184): the row of the standard table (R108) with the request's key. -/
def standardLookup (r : SetupRequest) : Option Instr :=
  if r.type = 0x80 ∧ r.req = 0x00 then some (.getStatusDevice r.value r.index r.length)
  else if r.type = 0x81 ∧ r.req = 0x00 then some (.getStatusInterface r.value r.index r.length)
  else if r.type = 0x82 ∧ r.req = 0x00 then some (.getStatusEndpoint r.value r.index r.length)
  else if r.type = 0x00 ∧ r.req = 0x01 then some (.clearFeatureDevice r.value r.index r.length)
  else if r.type = 0x01 ∧ r.req = 0x01 then some (.clearFeatureInterface r.value r.index r.length)
  else if r.type = 0x02 ∧ r.req = 0x01 then some (.clearFeatureEndpoint r.value r.index r.length)
  else if r.type = 0x00 ∧ r.req = 0x03 then some (.setFeatureDevice r.value r.index r.length)
  else if r.type = 0x01 ∧ r.req = 0x03 then some (.setFeatureInterface r.value r.index r.length)
  else if r.type = 0x02 ∧ r.req = 0x03 then some (.setFeatureEndpoint r.value r.index r.length)
  else if r.type = 0x00 ∧ r.req = 0x05 then some (.setAddress r.value r.index r.length)
  else if r.type = 0x80 ∧ r.req = 0x06 then some (descriptorRow false r)
  else if r.type = 0x81 ∧ r.req = 0x06 then some (descriptorRow true r)
  else if r.type = 0x80 ∧ r.req = 0x08 then some (.getConfiguration r.value r.index r.length)
  else if r.type = 0x00 ∧ r.req = 0x09 then some (.setConfiguration r.value r.index r.length)
  else if r.type = 0x81 ∧ r.req = 0x0A then some (.getInterface r.value r.index r.length)
  else if r.type = 0x01 ∧ r.req = 0x0B then some (.setInterface r.value r.index r.length)
  else if r.type = 0x82 ∧ r.req = 0x0C then some (.synchFrame r.value r.index r.length)
  else none

/-- The decode of R109: the class table, then the standard table, then the default row. -/
def decodeRequest (r : SetupRequest) : Instr :=
  match classLookup r with
  | some i => i
  | none =>
    match standardLookup r with
    | some i => i
    | none => .unmatched r.type r.req r.value r.index r.length

/-- Why bytes are no SETUP packet (R100: exactly 8 bytes). -/
inductive DecodeError
  /-- There are `n` bytes, not eight. -/
  | notEightBytes (n : Nat)
deriving DecidableEq, Repr

/-- Decoding any bytes: total, and rejecting by name what is no SETUP packet (R100, R109). -/
def decode : List Byte → Except DecodeError Instr
  | [b0, b1, b2, b3, b4, b5, b6, b7] => .ok (decodeRequest (assemble b0 b1 b2 b3 b4 b5 b6 b7))
  | bs => .error (.notEightBytes bs.length)

/-- The eight bytes of a request in packet order (R101). -/
def packet (type req : Byte) (value index length : Word16) : List Byte :=
  [type, req, loByte value, hiByte value, loByte index, hiByte index, loByte length, hiByte length]

/-- The request type of a GET_DESCRIPTOR packet: 0x81 to the interface, 0x80 to the device (R108). -/
def descriptorType (itf : Bool) : Byte := if itf then 0x81 else 0x80

/-- The packet of a request, from the tables of R107 and R108; an operation that is no request has no encoding
(R100). -/
def encode : Instr → Option (List Byte)
  | .getReport v x l => some (packet 0xA1 0x01 v x l)
  | .getIdle v x l => some (packet 0xA1 0x02 v x l)
  | .getProtocol v x l => some (packet 0xA1 0x03 v x l)
  | .setReport v x l => some (packet 0x21 0x09 v x l)
  | .setIdle v x l => some (packet 0x21 0x0A v x l)
  | .setProtocol v x l => some (packet 0x21 0x0B v x l)
  | .getStatusDevice v x l => some (packet 0x80 0x00 v x l)
  | .getStatusInterface v x l => some (packet 0x81 0x00 v x l)
  | .getStatusEndpoint v x l => some (packet 0x82 0x00 v x l)
  | .clearFeatureDevice v x l => some (packet 0x00 0x01 v x l)
  | .clearFeatureInterface v x l => some (packet 0x01 0x01 v x l)
  | .clearFeatureEndpoint v x l => some (packet 0x02 0x01 v x l)
  | .setFeatureDevice v x l => some (packet 0x00 0x03 v x l)
  | .setFeatureInterface v x l => some (packet 0x01 0x03 v x l)
  | .setFeatureEndpoint v x l => some (packet 0x02 0x03 v x l)
  | .setAddress v x l => some (packet 0x00 0x05 v x l)
  | .getDescriptorDevice itf d x l => some (packet (descriptorType itf) 0x06 (u16 d 0x01) x l)
  | .getDescriptorConfiguration itf d x l => some (packet (descriptorType itf) 0x06 (u16 d 0x02) x l)
  | .getDescriptorHid itf d x l => some (packet (descriptorType itf) 0x06 (u16 d 0x21) x l)
  | .getDescriptorReport itf d x l => some (packet (descriptorType itf) 0x06 (u16 d 0x22) x l)
  | .getDescriptorOther itf t d x l => some (packet (descriptorType itf) 0x06 (u16 d t) x l)
  | .getConfiguration v x l => some (packet 0x80 0x08 v x l)
  | .setConfiguration v x l => some (packet 0x00 0x09 v x l)
  | .getInterface v x l => some (packet 0x81 0x0A v x l)
  | .setInterface v x l => some (packet 0x01 0x0B v x l)
  | .synchFrame v x l => some (packet 0x82 0x0C v x l)
  | .unmatched type req v x l => some (packet type req v x l)
  | .por | .eor | .sof | .comm | .pFxTx | .pInLoop | .pStOut | .pStIn | .pAddrAck | .pOutDrain
  | .scanRow | .getState | .reportSend | .hostSetup _ | .hostIn0 | .hostOut _ | .busReset | .sofTick
  | .spuriousComm | .hostInk | .keys _ _ _ | .hostStalled | .selectEndpoint _ | .isSetupPending
  | .isSendReady | .isReceivePending | .fifoRead | .fifoWrite _ | .clearSetupFlag | .clearSendFlag
  | .clearReceiveFlag | .stall | .syncStatusStage _ | .writeAddress _ | .configureEndpoint _ | .kbdReady
  | .kbdRearm | .setDirectionSetLevelReadLevel _ => none

/-- The eight bytes of the word `W = Σ byte[i] << (8 i)` of R101. -/
def packetOfWord (w : Nat) : List Byte := (List.range 8).map fun i => BitVec.ofNat 8 (w / 256 ^ i)

/-- The packet of an opcode-table word of `nbits` bits: the bits above `nbits` are 0. -/
def tablePacket (nbits w : Nat) : List Byte := packetOfWord (w % 2 ^ nbits)

/-- The instruction the decoder reads from a word of the opcode table (at most 64 bits). -/
def decodeTableWord (nbits w : Nat) : Option Instr :=
  if 64 < nbits then none
  else
    match decode (tablePacket nbits w) with
    | .ok i => some i
    | .error _ => none

end Sys2Proof
end

