-- ==== Sys2Proof/Machine/State.lean ====
section
/-! DEFINITION. The state of the block (spec/10_state.md): block state R21 to R35, transport state R40 to R52, pins
and environment R53 to R55, and the model's own fields (the parameters of R56, the placed moves, the draws, the
answer of a primitive). INVENTORY.md lists every element with its rule and reset value. -/

namespace Sys2Proof.Machine

/-- `enum_state`, the DeviceEnumerationState (R26). -/
inductive EnumState
  | default | addressed | configured
deriving DecidableEq, Repr, Inhabited

/-- The 2-bit encoding of `enum_state` on the status port (R26, R57, D28); 3 is no state. -/
def EnumState.code : EnumState → BitVec 2
  | .default => 0
  | .addressed => 1
  | .configured => 2

/-- `dphase`, the dispatcher's position (R23). -/
inductive DPhase
  | idle | fxTx | inLoop | stOut | stIn | addrAck | outDrain
deriving DecidableEq, Repr, Inhabited

/-- `mphase`, the main loop's position (R24). -/
inductive MPhase
  | scan | state | send
deriving DecidableEq, Repr, Inhabited

/-- `krs`, the KeyboardReportState (R34): `keys[0]` to `keys[5]` are `k0` to `k5`. -/
structure KeyReport where
  mod : Byte
  ovf : Bool
  k0 : Byte
  k1 : Byte
  k2 : Byte
  k3 : Byte
  k4 : Byte
  k5 : Byte
deriving DecidableEq, Repr, Inhabited

/-- The control registers shared between the contexts (R26 to R30). -/
structure Control where
  enumState : EnumState
  cfgValue : Byte
  /-- In frame ticks (R28). -/
  idleDuration : Word16
  /-- In frame ticks (R29). -/
  idleRemaining : Word16
  /-- true is report protocol (R30). -/
  protocolMode : Bool
deriving DecidableEq, Repr

/-- The event latches (R31). -/
structure Events where
  eorPend : Bool
  sofPend : Bool
  commPend : Bool
deriving DecidableEq, Repr

/-- The dispatcher: the SetupRequest latch, the transfer registers and the phase (R21 to R23). -/
structure Dispatcher where
  rq : SetupRequest
  xfSrc : XferSource
  xfPtr : Word16
  xfRem : Word16
  xfZlp : Bool
  post : PostEffect
  fx : List Byte
  dphase : DPhase
deriving DecidableEq, Repr

/-- The main loop's position and the scanner (R24, R32, R33, R35). -/
structure Scanner where
  mphase : MPhase
  scanRow : Nat
  scanAcc : Bool
  /-- true is key down. -/
  matrix : Grid Bool
  dbCnt : Grid Nat
  scanChanged : Bool
deriving DecidableEq, Repr

/-- Control endpoint 0 (R42 to R48). -/
structure ControlEp where
  cfg : Bool
  setupPend : Bool
  txReady : Bool
  rxPend : Bool
  stallReq : Bool
  /-- `fifo0`, oldest byte first. -/
  fifo : List Byte
  /-- `in_pkt0`, the committed IN packet not yet collected. -/
  inPkt : Option (List Byte)
deriving DecidableEq, Repr

/-- The keyboard interrupt IN endpoint (R49 to R52). -/
structure KeyboardEp where
  cfg : Bool
  rwal : Bool
  /-- `kbd_fifo`, oldest byte first. -/
  fifo : List Byte
  /-- `kbd_in_pkt`. -/
  inPkt : Option (List Byte)
deriving DecidableEq, Repr

/-- The row pins (R53). -/
structure Pins where
  /-- true is output. -/
  rowDir : List Bool
  rowLvl : List Bool
deriving DecidableEq, Repr

/-- One entry of `host_trace` (R55, and `RESET` of R163). -/
inductive HostEvent
  | setup (bytes : List Byte)
  | in0 (p : List Byte)
  | out0 (p : List Byte)
  | inK (p : List Byte)
  | stall0
  | addr (a : UsbAddr)
  | reset
deriving DecidableEq, Repr

/-- The value a primitive called by name returns to its caller (R143 to R146, R154, R155, R301; the answer lines of
R57). -/
inductive Answer
  | none
  | bit (b : Bool)
  | byte (b : Byte)
deriving DecidableEq, Repr

/-- The whole state. -/
structure State where
  ctl : Control
  ev : Events
  disp : Dispatcher
  scan : Scanner
  krs : KeyReport
  /-- `ep_sel` (R40). -/
  epSel : EpNum
  /-- `uaddr` (R41). -/
  uaddr : UsbAddr
  /-- `adden` (R41). -/
  adden : Bool
  ep0 : ControlEp
  kbd : KeyboardEp
  pins : Pins
  /-- `sw`, the switches: true conducts (R54; environment state). -/
  sw : Grid Bool
  /-- `host_trace`, oldest entry first (R55; a ghost). -/
  hostTrace : List HostEvent
  /-- The parameters (R7, R56): no step writes them. The model's own field (log entry 3). -/
  par : Params
  /-- The moves and steps placed to be taken next, in this order (R344). The model's own field (log entry 1). -/
  sched : List Instr
  /-- How many turns were taken: the argument of the free choice of R344. The model's own field. -/
  turn : Nat
  /-- The answers placed for the next calls of `configure_endpoint` (R154). The model's own field (log entry 5). -/
  cfgAnswers : List Bool
  /-- How many free values were drawn. The model's own field (log entry 5). -/
  draws : Nat
  /-- The value the last primitive called by name returned. The model's own field (log entry 6). -/
  answer : Answer
deriving DecidableEq, Repr

/-- The reasons the machine stops with a fault. -/
inductive Fault
  /-- FIFO_OVERRUN (R147, R336): a `fifo_write` on a full FIFO, raised by P_FX_TX, P_IN_LOOP, REPORT_SEND and the
  primitive fifo_write. Safe: the spec gives the step no successor. -/
  | fifoOverrun
  /-- A read outside a read-only space (R75, R242: none exists), raised by P_IN_LOOP in states no run reaches. Safe:
  the machine stops where the spec names no byte. -/
  | readOutsideSource
deriving DecidableEq, Repr

/-- The reasons an operation has no transition. -/
inductive Refusal
  /-- The arm of exec has no meaning yet, by the mnemonic of its row. Safe. -/
  | notModelled (mnemonic : String)
  /-- A step of the block whose enabling condition does not hold (R12, R180, R304, R343, R344), raised by the handler,
  phase and main-loop steps, by a request outside the COMM entry step, and by sync_status_stage while it waits. Safe:
  the spec gives no transition; step lets the turn pass. -/
  | notEnabled
  /-- A move of the environment whose precondition does not hold (R160 to R162, R166, R168), raised by the moves. Safe:
  the move is not possible; step lets the turn pass. -/
  | moveImpossible
  /-- A FIFO or flag primitive called with another endpoint selected (R157, U15), raised by the primitives and by
  steps that call them, in states no run reaches. Safe: "a model refuses it". -/
  | wrongEndpoint
  /-- An operand outside the range the spec gives it (Instr.wf), raised by HOST_SETUP, HOST_OUT, KEYS,
  configure_endpoint and the pin primitives. Safe: no such operation exists. -/
  | badOperand
  /-- The dispatcher was handed an operation that is no request; no decode gives one. Safe. -/
  | notARequest
deriving DecidableEq, Repr

/-- The outcome of one step of this machine. -/
abbrev Result := Host.Outcome State Fault Refusal

/-- `rows` × `cols` cells of one value. -/
abbrev Grid.fill {α : Type} (rows cols : Nat) (v : α) : Grid α := List.replicate rows (List.replicate cols v)

/-- The state after POR of a block with the parameters `p` whose unspecified elements are zero, with the switches
open and nothing placed (spec/10 section 11; log entry 2 for the elements the spec leaves unspecified). -/
def State.initial (p : Params) : State where
  ctl := { enumState := .default, cfgValue := 0, idleDuration := Config.idleDefault, idleRemaining := 0,
           protocolMode := true }
  ev := { eorPend := false, sofPend := false, commPend := false }
  disp := { rq := { type := 0, req := 0, value := 0, index := 0, length := 0 }, xfSrc := .dev, xfPtr := 0,
            xfRem := 0, xfZlp := false, post := .none, fx := [], dphase := .idle }
  scan := { mphase := .scan, scanRow := 0, scanAcc := false, matrix := Grid.fill p.rows p.cols false,
            dbCnt := Grid.fill p.rows p.cols 0, scanChanged := false }
  krs := { mod := 0, ovf := false, k0 := 0, k1 := 0, k2 := 0, k3 := 0, k4 := 0, k5 := 0 }
  epSel := 0
  uaddr := 0
  adden := false
  ep0 := { cfg := false, setupPend := false, txReady := false, rxPend := false, stallReq := false, fifo := [],
           inPkt := none }
  kbd := { cfg := false, rwal := false, fifo := [], inPkt := none }
  pins := { rowDir := List.replicate p.rows false, rowLvl := List.replicate p.rows false }
  sw := Grid.fill p.rows p.cols false
  hostTrace := []
  par := p
  sched := []
  turn := 0
  cfgAnswers := []
  draws := 0
  answer := .none

/-- The machine right after power-on reset (R370; spec/10 section 11). -/
def State.reset : State := State.initial Config.defaultParams

end Sys2Proof.Machine
end

