-- ==== Sys2Proof/Machine/Operands.lean ====
section
/-! DEFINITION. What the requests compute from their operands: operand assembly (spec/30 R103), the reply bytes
(R113, R114), the sources of a chunked transfer (spec/43 R242) and reads of the read-only spaces (spec/20 R75). -/

namespace Sys2Proof.Machine

/-- SET_ADDRESS: `a = rq.value[6:0]` (R103, R204). -/
def addressOf (value : Word16) : UsbAddr := value.extractLsb' 0 7

/-- GET_/SET_CONFIGURATION: `rq.value > 1`, on all 16 bits (R212). -/
def configRejected (value : Word16) : Bool := decide (Config.maxCfgValue < value.toNat)

/-- SET_IDLE: `zext_16(rq.value[15:8]) << 2`, in frame ticks (R103, R264). -/
def idleTicks (value : Word16) : Word16 := (hiByte value).zeroExtend 16 <<< 2

/-- SET_PROTOCOL: the wire value 1 is report protocol, anything else boot protocol (R103, R266). -/
def protocolOf (value : Word16) : Bool := value == 1

/-- GET_IDLE's reply `(idle_remaining >> 2)[7:0]` (R113, R262). -/
def idleReply (remaining : Word16) : Byte := loByte (remaining >>> 2)

/-- GET_PROTOCOL's reply: 01 for report protocol, 00 for boot protocol (R113, R265). -/
def protocolReply (mode : Bool) : Byte := if mode then 1 else 0

/-- The boot input report (R73, R114, R286): 8 bytes, the reserved one 0x00. -/
def reportBytes (k : KeyReport) : List Byte := [k.mod, 0x00, k.k0, k.k1, k.k2, k.k3, k.k4, k.k5]

/-- The bytes of a source (R242, column "bytes"). -/
def sourceBytes (s : State) : XferSource → List Byte
  | .dev => s.par.devDesc
  | .cfgTree => s.par.cfgBlob
  | .cfgHid => (s.par.cfgBlob.drop Config.hidDescOffset).take Config.hidDescLen
  | .rpt => s.par.reportDesc
  | .krs => reportBytes s.krs

/-- The length of a source (R242, column L). -/
def sourceLen (s : State) : XferSource → Nat
  | .dev => Config.devDescLen
  | .cfgTree => Config.cfgTotalLen
  | .cfgHid => Config.hidDescLen
  | .rpt => s.par.reportDesc.length
  | .krs => Config.kbdReportLen

/-- `MemRead(space, addr, n)` (R10, R75): n consecutive bytes, lowest offset first; none outside the space. -/
def memRead (space : List Byte) (addr n : Nat) : Option (List Byte) :=
  if addr + n ≤ space.length then some ((space.drop addr).take n) else none

/-- The served length `min(rq.length, L)` (R13 (a), R243), a u16. -/
def servedLen (length : Word16) (l : Nat) : Word16 := BitVec.ofNat 16 (min length.toNat l)

/-- `g[r][c]`, or `d` outside the grid. -/
def gridGet {α : Type} (g : Grid α) (d : α) (r c : Nat) : α := (g.getD r []).getD c d

/-- `g[r][c] <- v`; outside the grid nothing. -/
def gridSet {α : Type} (g : Grid α) (r c : Nat) (v : α) : Grid α := g.set r ((g.getD r []).set c v)

end Sys2Proof.Machine
end

