-- ==== Sys2Proof/Machine/Flags.lean ====
section
/-! DEFINITION. The flag tests (spec/10 R35, spec/40 R143 to R145, R155), when an agent's step is enabled (spec/60
R343, R344; spec/10 R23) and when a move of the environment is possible (spec/40 R160 to R168), and the owed
zero-length packet (spec/43 R247). -/

namespace Sys2Proof.Machine

/-- `is_setup_pending()` (R143). -/
def isSetupPending (s : State) : Bool := s.ep0.setupPend

/-- `is_send_ready()` (R144). -/
def isSendReady (s : State) : Bool := s.ep0.txReady

/-- `is_receive_pending()` (R145). -/
def isReceivePending (s : State) : Bool := s.ep0.rxPend

/-- `kbd_ready()` (R155). -/
def kbdReady (s : State) : Bool := s.kbd.cfg && s.kbd.rwal

/-- No dispatch is in progress (R81): the condition shared by the handlers and the main loop. -/
abbrev NoDispatch (s : State) : Prop := s.disp.dphase = .idle

/-- EOR is enabled (R341). -/
abbrev EorEnabled (s : State) : Prop := s.ev.eorPend = true ∧ NoDispatch s

/-- SOF is enabled (R281, R343). -/
abbrev SofEnabled (s : State) : Prop := s.ev.sofPend = true ∧ NoDispatch s ∧ s.ev.eorPend = false

/-- The COMM entry step is enabled (R180, R343). -/
abbrev CommEnabled (s : State) : Prop :=
  s.ev.commPend = true ∧ NoDispatch s ∧ s.ev.eorPend = false ∧ s.ev.sofPend = false

/-- A request's handler may start (R180, R183, R184): the entry step runs at P_IDLE with the SETUP pending. -/
abbrev RequestPending (s : State) : Prop := NoDispatch s ∧ isSetupPending s = true

/-- The dispatcher stands in a phase that waits for `tx_ready` alone, and the wait is over (R23). -/
abbrev SendPhaseEnabled (ph : DPhase) (s : State) : Prop := s.disp.dphase = ph ∧ isSendReady s = true

/-- P_IN_LOOP is enabled (R244). -/
abbrev InLoopEnabled (s : State) : Prop :=
  s.disp.dphase = .inLoop ∧ (isSendReady s = true ∨ isReceivePending s = true ∨ isSetupPending s = true)

/-- P_ST_OUT is enabled (R245). -/
abbrev StOutEnabled (s : State) : Prop := s.disp.dphase = .stOut ∧ isReceivePending s = true

/-- P_OUT_DRAIN is enabled (R263). -/
abbrev OutDrainEnabled (s : State) : Prop :=
  s.disp.dphase = .outDrain ∧ (isReceivePending s = true ∨ isSetupPending s = true)

/-- A main-loop step is enabled at its phase (R290, R304, R311, R285): a pending handler does not hold it off
(R344; log entry 9). -/
abbrev MainEnabled (ph : MPhase) (s : State) : Prop := s.scan.mphase = ph ∧ NoDispatch s

/-- HOST_SETUP is possible (R160). -/
abbrev SetupPossible (s : State) : Prop := s.ep0.cfg = true

/-- HOST_OUT is possible (R162). -/
abbrev OutPossible (s : State) : Prop :=
  s.ep0.cfg = true ∧ s.ep0.rxPend = false ∧ s.ep0.setupPend = false ∧ s.ep0.stallReq = false

/-- HOST_STALLED is possible (R168). -/
abbrev StalledPossible (s : State) : Prop := s.ep0.cfg = true ∧ s.ep0.stallReq = true

/-- `xf_zlp` at the start of a transfer of `served` bytes for `requested` (R243, R247): a zero-length packet is owed
when the served length is a non-zero multiple of 64 and less than the requested one. -/
def zlpOwed (served requested : Word16) : Bool :=
  decide (0 < served.toNat ∧ served.toNat < requested.toNat ∧ served.toNat % Config.ep0Size = 0)

end Sys2Proof.Machine
end

