-- ==== Sys2Proof/Machine/Ops.lean ====
section
/-! DEFINITION. The named operations every meaning is written over: the transport primitives (spec/40 R142 to R156),
the pin primitives (spec/46 R301), taking an event and returning from a dispatch (spec/60 R331, R346, R347), and the
draws of free values. A transport operation acts on the endpoint the rules call it with; exec refuses a call with
another selection (R157). -/

namespace Sys2Proof.Machine

/-- Go on from an outcome with its next state. -/
def andThen (o : Result) (k : State → Result) : Result :=
  match o with
  | .next s => k s
  | .fault r => .fault r
  | .refused r => .refused r

/-- Run a step whose flag primitives are defined for endpoint 0 only (R157). -/
def onEp0 (k : State → Result) (s : State) : Result :=
  if s.epSel = 0 then k s else .refused .wrongEndpoint

/-- Append an entry to `host_trace` (R55). -/
def record (e : HostEvent) (s : State) : State := { s with hostTrace := s.hostTrace ++ [e] }

/-! ## Draws -/

/-- The number of the next free value, used up. -/
def nextDraw (s : State) : Nat × State := (s.draws, { s with draws := s.draws + 1 })

/-- The answer the environment gives to a `configure_endpoint` (R154): a placed one, else a free value. -/
def cfgAnswer (s : State) : Bool :=
  match s.cfgAnswers with
  | ok :: _ => ok
  | [] => Config.freeCfgOk s.draws

/-- Use up the answer `cfgAnswer` gave. -/
def dropCfgAnswer (s : State) : State := { s with cfgAnswers := s.cfgAnswers.tail }

/-! ## Transport primitives -/

/-- `select_endpoint(n)` (R142). -/
def selectEndpoint (n : EpNum) (s : State) : State := { s with epSel := n }

/-- The FIFO of the selected endpoint (R146, R147): `fifo0` if `ep_sel = 0`, else `kbd_fifo`. -/
def selectedFifo (s : State) : List Byte := if s.epSel = 0 then s.ep0.fifo else s.kbd.fifo

/-- Its capacity (R147). -/
def selectedCapacity (s : State) : Nat := if s.epSel = 0 then Config.ep0Size else Config.kbdReportLen

/-- The state with the selected FIFO holding `bs`. -/
def setSelectedFifo (bs : List Byte) (s : State) : State :=
  if s.epSel = 0 then { s with ep0 := { s.ep0 with fifo := bs } } else { s with kbd := { s.kbd with fifo := bs } }

/-- `fifo_read()` (R146): the oldest byte, removed; from an empty FIFO a free value. -/
def fifoRead (s : State) : Byte × State :=
  match selectedFifo s with
  | b :: rest => (b, setSelectedFifo rest s)
  | [] => (Config.freeByte s.draws, (nextDraw s).2)

/-- `fifo_write(b)` (R147): append, or FIFO_OVERRUN on a full FIFO (R336). -/
def fifoWrite (b : Byte) (s : State) : Result :=
  if (selectedFifo s).length < selectedCapacity s then .next (setSelectedFifo (selectedFifo s ++ [b]) s)
  else .fault .fifoOverrun

/-- `fifo_write` of each byte, in order. -/
def fifoWriteAll : List Byte → State → Result
  | [], s => .next s
  | b :: bs, s => andThen (fifoWrite b s) (fifoWriteAll bs)

/-- `clear_setup_flag()` (R148). -/
def clearSetupFlag (s : State) : State := { s with ep0 := { s.ep0 with setupPend := false, fifo := [] } }

/-- `clear_send_flag()`, the commit (R149). -/
def clearSendFlag (s : State) : State :=
  { s with ep0 := { s.ep0 with inPkt := some s.ep0.fifo, fifo := [], txReady := false } }

/-- `clear_receive_flag()` (R150). -/
def clearReceiveFlag (s : State) : State := { s with ep0 := { s.ep0 with rxPend := false, fifo := [] } }

/-- `stall()` (R151). -/
def stall (s : State) : State := { s with ep0 := { s.ep0 with stallReq := true } }

/-- `write_address(a)` (R153). -/
def writeAddress (a : UsbAddr) (s : State) : State := record (.addr a) { s with uaddr := a, adden := true }

/-- Endpoint 0 after `configure_endpoint(0)` answered `ok` (R154). -/
def configuredEp0 (ok : Bool) (e : ControlEp) : ControlEp :=
  if ok then
    { cfg := true, setupPend := false, txReady := true, rxPend := false, stallReq := false, fifo := [],
      inPkt := none }
  else { e with cfg := false, txReady := false }

/-- The keyboard endpoint after `configure_endpoint(KBD_EP)` answered `ok` (R154). -/
def configuredKbd (ok : Bool) (e : KeyboardEp) : KeyboardEp :=
  if ok then { cfg := true, rwal := true, fifo := [], inPkt := none } else { e with cfg := false, rwal := false }

/-- `configure_endpoint(e)` (R154) apart from its return value, which is `cfgAnswer`: the endpoint takes the answer,
and `ep_sel` becomes a free value. -/
def configureEndpoint (e : EpNum) (s : State) : State :=
  let ok := cfgAnswer s
  let s' := dropCfgAnswer { s with epSel := Config.freeEpSel s.draws, draws := s.draws + 1 }
  if e = 0 then { s' with ep0 := configuredEp0 ok s.ep0 } else { s' with kbd := configuredKbd ok s.kbd }

/-- `kbd_rearm()` (R156). -/
def kbdRearm (s : State) : State :=
  { s with kbd := { s.kbd with inPkt := some s.kbd.fifo, fifo := [], rwal := false } }

/-! ## Pin primitives (R301) -/

/-- `set_direction(row r, d)`: true is OUT. -/
def setDirection (r : Nat) (out : Bool) (s : State) : State :=
  { s with pins := { s.pins with rowDir := s.pins.rowDir.set r out } }

/-- `set_level(row r, l)`. -/
def setLevel (r : Nat) (level : Bool) (s : State) : State :=
  { s with pins := { s.pins with rowLvl := s.pins.rowLvl.set r level } }

/-- Row r is driven at the active level. -/
def rowDriven (s : State) (r : Nat) : Bool :=
  s.pins.rowDir.getD r false && (s.pins.rowLvl.getD r (!s.par.activeLevel) == s.par.activeLevel)

/-- `read_level(col c)`: `col_in[c]` of R54, the active level exactly when a driven row reaches the column through a
conducting switch. -/
def readLevel (s : State) (c : Nat) : Bool :=
  if (List.range s.par.rows).any fun r => rowDriven s r && gridGet s.sw false r c then s.par.activeLevel
  else !s.par.activeLevel

/-! ## Exceptions and events -/

/-- The label of a stall, which the hardware does not keep (R331). -/
inductive StallCause
  | spurious | unsupported
deriving DecidableEq, Repr

/-- Taking the exception `Stall(cause)` (R331): nothing is saved and control goes nowhere; endpoint 0 answers STALL
until the next SETUP. -/
def raiseStall (_cause : StallCause) (s : State) : State := stall s

/-- The three events (R340). -/
inductive Event
  | eor | sof | comm
deriving DecidableEq, Repr

/-- Entering an event's handler (R346): its pending bit is cleared, and nothing else is saved or changed. -/
def takeEvent : Event → State → State
  | .eor, s => { s with ev := { s.ev with eorPend := false } }
  | .sof, s => { s with ev := { s.ev with sofPend := false } }
  | .comm, s => { s with ev := { s.ev with commPend := false } }

/-- `dphase <- ph`. -/
def setPhase (ph : DPhase) (s : State) : State := { s with disp := { s.disp with dphase := ph } }

/-- The return from a dispatch (R188, R347): `dphase <- P_IDLE`. -/
def endDispatch (s : State) : State := setPhase .idle s

end Sys2Proof.Machine
end

