-- ==== Sys2Proof/Machine/Environment.lean ====
section
/-! DEFINITION. The moves of the environment (spec/40 R160 to R168): the host, the bus and the switches. A move whose
precondition does not hold is not possible. -/

namespace Sys2Proof.Machine

/-- HOST_SETUP(b) (R160): it overwrites an unread SETUP, ends a stall, and drops an uncollected IN packet. -/
def execHostSetup (b : List Byte) (s : State) : Result :=
  if b.length = 8 then
    if SetupPossible s then
      .next (record (.setup b) { s with
        ep0 := { s.ep0 with fifo := b, setupPend := true, stallReq := false, inPkt := none, txReady := true,
                            rxPend := false }
        ev := { s.ev with commPend := true } })
    else .refused .moveImpossible
  else .refused .badOperand

/-- HOST_IN0 (R161): the host collects the committed packet of endpoint 0. -/
def execHostIn0 (s : State) : Result :=
  match s.ep0.inPkt with
  | some p =>
    if s.ep0.cfg = true ∧ s.ep0.stallReq = false then
      .next (record (.in0 p) { s with ep0 := { s.ep0 with inPkt := none, txReady := true } })
    else .refused .moveImpossible
  | none => .refused .moveImpossible

/-- HOST_OUT(p) (R162): an OUT packet of 0 to 64 bytes. -/
def execHostOut (p : List Byte) (s : State) : Result :=
  if p.length ≤ Config.ep0Size then
    if OutPossible s then .next (record (.out0 p) { s with ep0 := { s.ep0 with fifo := p, rxPend := true } })
    else .refused .moveImpossible
  else .refused .badOperand

/-- BUS_RESET (R163): all transport state is cleared and the End-Of-Reset event signalled; no block state changes. -/
def execBusReset (s : State) : Result :=
  .next (record .reset { s with
    uaddr := 0
    adden := false
    ep0 := { cfg := false, setupPend := false, txReady := false, rxPend := false, stallReq := false, fifo := [],
             inPkt := none }
    kbd := { cfg := false, rwal := false, fifo := [], inPkt := none }
    ev := { s.ev with eorPend := true } })

/-- SOF_TICK (R164): a second tick before service is merged (R31). -/
def execSofTick (s : State) : Result := .next { s with ev := { s.ev with sofPend := true } }

/-- SPURIOUS_COMM (R165). -/
def execSpuriousComm (s : State) : Result := .next { s with ev := { s.ev with commPend := true } }

/-- HOST_INK (R166): the host collects the keyboard report. -/
def execHostInk (s : State) : Result :=
  match s.kbd.inPkt with
  | some p =>
    if s.kbd.cfg then .next (record (.inK p) { s with kbd := { s.kbd with inPkt := none, rwal := true } })
    else .refused .moveImpossible
  | none => .refused .moveImpossible

/-- KEYS(r, c, v) (R167). -/
def execKeys (r c : Nat) (v : Bool) (s : State) : Result :=
  if r < s.par.rows ∧ c < s.par.cols then .next { s with sw := gridSet s.sw r c v } else .refused .badOperand

/-- HOST_STALLED (R168): the host sees the stall; only the trace records it. -/
def execHostStalled (s : State) : Result :=
  if StalledPossible s then .next (record .stall0 s) else .refused .moveImpossible

end Sys2Proof.Machine
end

