-- ==== Sys2Proof/Machine/Bodies.lean ====
section
/-! DEFINITION. The handler bodies several requests share (spec/43 R240, R241, R243; spec/41 R186), each the part that
runs inside the COMM entry step, up to the first wait. Every body clears the SETUP flag first (R187). -/

namespace Sys2Proof.Machine

/-- Start a handler: it runs only inside the COMM entry step, with the dispatcher idle, the SETUP pending and
endpoint 0 selected (R180, R187, R157). -/
def startRequest (body : State → State) (s : State) : Result :=
  if RequestPending s then onEp0 (fun s => .next (body s)) s else .refused .notEnabled

/-- `ACK_H2D(p)` (R240): status stage only, the effect `p` left for it. -/
def ackH2D (p : PostEffect) (s : State) : State :=
  let s' := clearSetupFlag s
  { s' with disp := { s'.disp with post := p, dphase := .stIn } }

/-- `REPLY_FIXED(bytes)` (R241), entry part. -/
def replyFixed (bytes : List Byte) (s : State) : State :=
  let s' := clearSetupFlag s
  { s' with disp := { s'.disp with fx := bytes, dphase := .fxTx } }

/-- `CTRL_IN(src, L)` (R243): start of a chunked transfer of `min(rq.length, L)` bytes. -/
def ctrlIn (src : XferSource) (length : Word16) (s : State) : State :=
  let s' := clearSetupFlag s
  let served := servedLen length (sourceLen s src)
  { s' with disp := { s'.disp with
      xfSrc := src
      xfPtr := 0
      xfRem := served
      xfZlp := zlpOwed served length
      dphase := if served = 0 then .stOut else .inLoop } }

/-- `IGNORE` (R186): the SETUP flag is consumed and nothing else is done. -/
def ignoreRequest (s : State) : State := endDispatch (clearSetupFlag s)

end Sys2Proof.Machine
end

