-- ==== Sys2Proof/Machine/ClassRequests.lean ====
section
/-! DEFINITION. The six HID class requests (spec/44_hid_class.md). `rq.index` is ignored by every one (R260), and none
depends on `enum_state` (R267). -/

namespace Sys2Proof.Machine

/-- GET_REPORT (R261): the current input report, truncated to `rq.length`; report type and id ignored. -/
def execGetReport (_value _index length : Word16) (s : State) : Result := startRequest (ctrlIn .krs length) s

/-- GET_IDLE (R262): the remaining countdown in 4 ms units, as it is at the entry step. -/
def execGetIdle (_value _index _length : Word16) (s : State) : Result :=
  startRequest (replyFixed [idleReply s.ctl.idleRemaining]) s

/-- GET_PROTOCOL (R265). -/
def execGetProtocol (_value _index _length : Word16) (s : State) : Result :=
  startRequest (replyFixed [protocolReply s.ctl.protocolMode]) s

/-- Entry part of SET_REPORT (R263): with data to come it waits for the OUT packets, else it acknowledges. -/
def drainReport (length : Word16) (s : State) : State :=
  if length = 0 then ackH2D .none s
  else
    let s' := clearSetupFlag s
    { s' with disp := { s'.disp with xfRem := length, dphase := .outDrain } }

/-- SET_REPORT (R263): a no-op whose data stage is received and discarded. -/
def execSetReport (_value _index length : Word16) (s : State) : Result := startRequest (drainReport length) s

/-- SET_IDLE (R264): the duration takes effect in the status stage; the report id is ignored. -/
def execSetIdle (value _index _length : Word16) (s : State) : Result :=
  startRequest (ackH2D (.idle (idleTicks value))) s

/-- SET_PROTOCOL (R266). -/
def execSetProtocol (value _index _length : Word16) (s : State) : Result :=
  startRequest (ackH2D (.proto (protocolOf value))) s

end Sys2Proof.Machine
end

