-- ==== Sys2Proof/Machine/StandardRequests.lean ====
section
/-! DEFINITION. The standard requests (spec/42_standard_requests.md) and the default for a request that no row selects
(spec/41 R185). No handler reads `rq.index` (R200). -/

namespace Sys2Proof.Machine

/-! ## GET_STATUS, CLEAR_FEATURE, SET_FEATURE: the same for the three recipients -/

/-- GET_STATUS, recipient device (R201): always two zero bytes, whatever `rq.length` is. -/
def execGetStatusDevice (_value _index _length : Word16) (s : State) : Result := startRequest (replyFixed [0x00, 0x00]) s

/-- GET_STATUS, recipient interface (R201): always two zero bytes, whatever `rq.length` is. -/
def execGetStatusInterface (_value _index _length : Word16) (s : State) : Result := startRequest (replyFixed [0x00, 0x00]) s

/-- GET_STATUS, recipient endpoint (R201): always two zero bytes, whatever `rq.length` is. -/
def execGetStatusEndpoint (_value _index _length : Word16) (s : State) : Result := startRequest (replyFixed [0x00, 0x00]) s

/-- CLEAR_FEATURE, recipient device (R202): acknowledged as a no-op. -/
def execClearFeatureDevice (_value _index _length : Word16) (s : State) : Result := startRequest (ackH2D .none) s

/-- CLEAR_FEATURE, recipient interface (R202): acknowledged as a no-op. -/
def execClearFeatureInterface (_value _index _length : Word16) (s : State) : Result := startRequest (ackH2D .none) s

/-- CLEAR_FEATURE, recipient endpoint (R202): acknowledged as a no-op. -/
def execClearFeatureEndpoint (_value _index _length : Word16) (s : State) : Result := startRequest (ackH2D .none) s

/-- SET_FEATURE, recipient device (R203): acknowledged as a no-op. -/
def execSetFeatureDevice (_value _index _length : Word16) (s : State) : Result := startRequest (ackH2D .none) s

/-- SET_FEATURE, recipient interface (R203): acknowledged as a no-op. -/
def execSetFeatureInterface (_value _index _length : Word16) (s : State) : Result := startRequest (ackH2D .none) s

/-- SET_FEATURE, recipient endpoint (R203): acknowledged as a no-op. -/
def execSetFeatureEndpoint (_value _index _length : Word16) (s : State) : Result := startRequest (ackH2D .none) s

/-! ## SET_ADDRESS, GET_DESCRIPTOR -/

/-- SET_ADDRESS (R204), entry part: the address is written only in the P_ADDR_ACK step. -/
def execSetAddress (value _index _length : Word16) (s : State) : Result :=
  startRequest (ackH2D (.addr (addressOf value))) s

/-- GET_DESCRIPTOR.DEVICE (R205, R206): the device descriptor, 18 bytes; descriptor index and recipient ignored. -/
def execGetDescriptorDevice (_itf : Bool) (_dindex : Byte) (_index length : Word16) (s : State) : Result :=
  startRequest (ctrlIn .dev length) s

/-- GET_DESCRIPTOR.CONFIGURATION (R205, R207): the configuration blob, 34 bytes; descriptor index and recipient ignored. -/
def execGetDescriptorConfiguration (_itf : Bool) (_dindex : Byte) (_index length : Word16) (s : State) : Result :=
  startRequest (ctrlIn .cfgTree length) s

/-- GET_DESCRIPTOR.HID (R205, R208): the HID descriptor alone, 9 bytes from offset 18 of CFG; descriptor index and recipient ignored. -/
def execGetDescriptorHid (_itf : Bool) (_dindex : Byte) (_index length : Word16) (s : State) : Result :=
  startRequest (ctrlIn .cfgHid length) s

/-- GET_DESCRIPTOR.REPORT (R205, R209): the report descriptor; descriptor index and recipient ignored. -/
def execGetDescriptorReport (_itf : Bool) (_dindex : Byte) (_index length : Word16) (s : State) : Result :=
  startRequest (ctrlIn .rpt length) s

/-- GET_DESCRIPTOR.OTHER (R210): unknown types are ignored, no response and no stall. -/
def execGetDescriptorOther (_itf : Bool) (_t _dindex : Byte) (_index _length : Word16) (s : State) : Result :=
  startRequest ignoreRequest s

/-! ## The configuration, the interface, SYNCH_FRAME -/

/-- GET_CONFIGURATION (R211, R212): `cfg_value` verbatim, in every `enum_state`; ignored for a value above 1. -/
def execGetConfiguration (value _index _length : Word16) (s : State) : Result :=
  startRequest (if configRejected value then ignoreRequest else replyFixed [s.ctl.cfgValue]) s

/-- SET_CONFIGURATION (R212, R213), entry part: ignored for a value above 1, else APPLY_CFG in the status stage. -/
def execSetConfiguration (value _index _length : Word16) (s : State) : Result :=
  startRequest (if configRejected value then ignoreRequest else ackH2D (.cfg (loByte value))) s

/-- GET_INTERFACE (R215): always alternate setting 0. -/
def execGetInterface (_value _index _length : Word16) (s : State) : Result := startRequest (replyFixed [0x00]) s

/-- SET_INTERFACE (R216): acknowledged as a no-op, whatever the alternate setting. -/
def execSetInterface (_value _index _length : Word16) (s : State) : Result := startRequest (ackH2D .none) s

/-- SYNCH_FRAME (R217): ignored. -/
def execSynchFrame (_value _index _length : Word16) (s : State) : Result := startRequest ignoreRequest s

/-- UNMATCHED (R110, R185): the SETUP flag is cleared and `Stall(UNSUPPORTED)` taken. -/
def execUnmatched (_type _req : Byte) (_value _index _length : Word16) (s : State) : Result :=
  startRequest (fun s => raiseStall .unsupported (clearSetupFlag s)) s

end Sys2Proof.Machine
end

