-- ==== Sys2Proof/Machine/Handlers.lean ====
section
/-! DEFINITION. Power-on reset (spec/70 R370), the one-step handlers EOR and SOF (spec/60 R341, spec/45 R281) and the
COMM entry step, which fetches, decodes and starts a request (spec/41 R180 to R187). -/

namespace Sys2Proof.Machine

/-- POR (R370): every element of spec/10 section 11 at its POR value, the unspecified ones at free values. The
switches, the ghost trace, the parameters and the model's own fields are not reset. -/
def execPor (s : State) : Result :=
  let n := s.draws
  let z := State.initial s.par
  .next { z with
    disp := { z.disp with
      rq := Config.freeRequest n
      xfSrc := Config.freeSource n
      xfPtr := Config.freeWord n 0
      xfRem := Config.freeWord n 1
      xfZlp := Config.freeBit n
      post := Config.freePost n
      fx := (Config.freeFx n).take 2 }
    epSel := Config.freeEpSel n
    pins := { z.pins with rowLvl := (List.range s.par.rows).map (Config.freeLevel n) }
    sw := s.sw
    hostTrace := s.hostTrace
    sched := s.sched
    turn := s.turn
    cfgAnswers := s.cfgAnswers
    draws := n + 1
    answer := s.answer }

/-- The EOR handler (R341): endpoint 0 is configured, and the state is Default whatever the answer. -/
def execEor (s : State) : Result :=
  if EorEnabled s then
    let s' := configureEndpoint 0 (selectEndpoint 0 (takeEvent .eor s))
    .next { s' with ctl := { s'.ctl with enumState := .default } }
  else .refused .notEnabled

/-- The countdown (R281): minus one, with a floor at 0. -/
def countDown (v : Word16) : Word16 := if v = 0 then v else v - 1

/-- The SOF handler (R281). -/
def execSof (s : State) : Result :=
  if SofEnabled s then
    let s' := takeEvent .sof s
    .next { s' with ctl := { s'.ctl with idleRemaining := countDown s'.ctl.idleRemaining } }
  else .refused .notEnabled

/-- All five fields of the latch at once (R21). -/
def latchRequest (rq : SetupRequest) (s : State) : State := { s with disp := { s.disp with rq := rq } }

/-- `PARSE()` (R182): eight FIFO reads, in this order, into the latch. -/
def parse (s : State) : State :=
  let r0 := fifoRead s
  let r1 := fifoRead r0.2
  let r2 := fifoRead r1.2
  let r3 := fifoRead r2.2
  let r4 := fifoRead r3.2
  let r5 := fifoRead r4.2
  let r6 := fifoRead r5.2
  let r7 := fifoRead r6.2
  latchRequest (assemble r0.1 r1.1 r2.1 r3.1 r4.1 r5.1 r6.1 r7.1) r7.2

/-- The handler of a decoded request (R191): one per row. -/
def runHandler (i : Instr) (s : State) : Result :=
  match i with
  | .getReport v x l => execGetReport v x l s
  | .getIdle v x l => execGetIdle v x l s
  | .getProtocol v x l => execGetProtocol v x l s
  | .setReport v x l => execSetReport v x l s
  | .setIdle v x l => execSetIdle v x l s
  | .setProtocol v x l => execSetProtocol v x l s
  | .getStatusDevice v x l => execGetStatusDevice v x l s
  | .getStatusInterface v x l => execGetStatusInterface v x l s
  | .getStatusEndpoint v x l => execGetStatusEndpoint v x l s
  | .clearFeatureDevice v x l => execClearFeatureDevice v x l s
  | .clearFeatureInterface v x l => execClearFeatureInterface v x l s
  | .clearFeatureEndpoint v x l => execClearFeatureEndpoint v x l s
  | .setFeatureDevice v x l => execSetFeatureDevice v x l s
  | .setFeatureInterface v x l => execSetFeatureInterface v x l s
  | .setFeatureEndpoint v x l => execSetFeatureEndpoint v x l s
  | .setAddress v x l => execSetAddress v x l s
  | .getDescriptorDevice f d x l => execGetDescriptorDevice f d x l s
  | .getDescriptorConfiguration f d x l => execGetDescriptorConfiguration f d x l s
  | .getDescriptorHid f d x l => execGetDescriptorHid f d x l s
  | .getDescriptorReport f d x l => execGetDescriptorReport f d x l s
  | .getDescriptorOther f t d x l => execGetDescriptorOther f t d x l s
  | .getConfiguration v x l => execGetConfiguration v x l s
  | .setConfiguration v x l => execSetConfiguration v x l s
  | .getInterface v x l => execGetInterface v x l s
  | .setInterface v x l => execSetInterface v x l s
  | .synchFrame v x l => execSynchFrame v x l s
  | .unmatched t r v x l => execUnmatched t r v x l s
  | .por | .eor | .sof | .comm | .pFxTx | .pInLoop | .pStOut | .pStIn | .pAddrAck | .pOutDrain
  | .scanRow | .getState | .reportSend | .hostSetup _ | .hostIn0 | .hostOut _ | .busReset | .sofTick
  | .spuriousComm | .hostInk | .keys _ _ _ | .hostStalled | .selectEndpoint _ | .isSetupPending
  | .isSendReady | .isReceivePending | .fifoRead | .fifoWrite _ | .clearSetupFlag | .clearSendFlag
  | .clearReceiveFlag | .stall | .syncStatusStage _ | .writeAddress _ | .configureEndpoint _ | .kbdReady
  | .kbdRearm | .setDirectionSetLevelReadLevel _ => .refused .notARequest

/-- The COMM entry step (R180): no SETUP pending is `Stall(SPURIOUS)` (R181); otherwise the packet is parsed (R182),
looked up in the class table and then in the standard table (R183, R184), and its handler, or the default of R185,
runs up to its first wait. -/
def execComm (s : State) : Result :=
  if CommEnabled s then
    let s1 := selectEndpoint 0 (takeEvent .comm s)
    if isSetupPending s1 then
      let s2 := parse s1
      runHandler (decodeRequest s2.disp.rq) s2
    else .next (raiseStall .spurious s1)
  else .refused .notEnabled

end Sys2Proof.Machine
end

