-- ==== Sys2Proof/Machine/Matrix.lean ====
section
/-! DEFINITION. The key-matrix scanner and the report state (spec/46_key_matrix.md R303 to R311). -/

namespace Sys2Proof.Machine

/-- `DEBOUNCE(r, c, s)` (R305): a cell flips when DEBOUNCE_SCANS consecutive samples differed from it. -/
def debounce (r c : Nat) (sample : Bool) (s : State) : State :=
  let m := s.scan
  if sample = gridGet m.matrix false r c then { s with scan := { m with dbCnt := gridSet m.dbCnt r c 0 } }
  else if s.par.debounceScans ≤ gridGet m.dbCnt 0 r c + 1 then
    { s with scan := { m with matrix := gridSet m.matrix r c sample, dbCnt := gridSet m.dbCnt r c 0,
                              scanAcc := true } }
  else { s with scan := { m with dbCnt := gridSet m.dbCnt r c (gridGet m.dbCnt 0 r c + 1) } }

/-- One column of a row: sample and filter (R304). -/
def scanCell (r : Nat) (s : State) (c : Nat) : State := debounce r c (readLevel s c == s.par.activeLevel) s

/-- Row r driven, every column sampled in ascending order, the row restored to high impedance (R304). -/
def sampleRow (r : Nat) (s : State) : State :=
  let driven := setLevel r s.par.activeLevel (setDirection r true s)
  setDirection r false ((List.range s.par.cols).foldl (scanCell r) driven)

/-- `END_OF_SCAN()` (R306). -/
def endOfScan (s : State) : State :=
  { s with scan := { s.scan with scanChanged := s.scan.scanAcc, scanAcc := false, scanRow := 0, mphase := .state } }

/-- The SCAN_ROW step (R304). -/
def execScanRow (s : State) : Result :=
  if MainEnabled .scan s then
    let r := s.scan.scanRow
    let s' := sampleRow r s
    .next (if r + 1 = s.par.rows then endOfScan s' else { s' with scan := { s'.scan with scanRow := r + 1 } })
  else .refused .notEnabled

/-- What `get_state()` has gathered so far: the mask, the overflow flag, the keycodes in scan order. -/
structure Gathered where
  mod : Byte
  ovf : Bool
  keys : List Byte
deriving DecidableEq, Repr

/-- One pressed cell with keycode `k` (R310): a modifier sets its bit, another key takes a slot, a seventh is dropped
and sets the overflow flag. -/
def gatherKey (g : Gathered) (k : Byte) : Gathered :=
  if Config.modFirst ≤ k.toNat ∧ k.toNat ≤ Config.modLast then
    { g with mod := g.mod ||| ((1 : Byte) <<< (k.toNat - Config.modFirst)) }
  else if g.keys.length < Config.maxKeys then { g with keys := g.keys ++ [k] }
  else { g with ovf := true }

/-- The positions of the matrix in scan order: row-major, ascending (R310). -/
def scanOrder (p : Params) : List (Nat × Nat) :=
  (List.range p.rows).flatMap fun r => (List.range p.cols).map fun c => (r, c)

/-- The keycodes of the pressed cells, in scan order. -/
def pressedKeycodes (s : State) : List Byte :=
  ((scanOrder s.par).filter fun rc => gridGet s.scan.matrix false rc.1 rc.2).map
    fun rc => gridGet s.par.layout 0 rc.1 rc.2

/-- `get_state()` (R310): unused slots are 0. -/
def reportState (s : State) : KeyReport :=
  let g := (pressedKeycodes s).foldl gatherKey { mod := 0, ovf := false, keys := [] }
  { mod := g.mod, ovf := g.ovf, k0 := g.keys.getD 0 0, k1 := g.keys.getD 1 0, k2 := g.keys.getD 2 0,
    k3 := g.keys.getD 3 0, k4 := g.keys.getD 4 0, k5 := g.keys.getD 5 0 }

/-- The GET_STATE step (R311): all eight fields of `krs` at once. -/
def execGetState (s : State) : Result :=
  if MainEnabled .state s then .next { s with krs := reportState s, scan := { s.scan with mphase := .send } }
  else .refused .notEnabled

end Sys2Proof.Machine
end

