-- ==== Sys2Proof/Machine/Phases.lean ====
section
/-! DEFINITION. The dispatcher's phase steps (spec/41 R189; spec/42 R204, R213; spec/43 R241, R244 to R246; spec/44
R263). A step whose wait is not over is not enabled (R12). -/

namespace Sys2Proof.Machine

/-- The P_FX_TX step (R241): the reply is written and committed as one packet. -/
def execPFxTx (s : State) : Result :=
  if SendPhaseEnabled .fxTx s then
    onEp0 (fun s => andThen (fifoWriteAll s.disp.fx s) fun s' => .next (setPhase .stOut (clearSendFlag s'))) s
  else .refused .notEnabled

/-- The transfer registers after a packet of `n` bytes (R244). -/
def advanceXfer (n : Nat) (d : Dispatcher) : Dispatcher :=
  let rem := d.xfRem.toNat - n
  let zlp := if n = 0 then false else d.xfZlp
  { d with
    xfPtr := BitVec.ofNat 16 (d.xfPtr.toNat + n)
    xfRem := BitVec.ofNat 16 rem
    xfZlp := zlp
    dphase := if rem = 0 ∧ zlp = false then .stOut else .inLoop }

/-- The send branch of P_IN_LOOP (R244): one IN packet of at most 64 bytes of the source. -/
def sendChunk (s : State) : Result :=
  let n := min s.disp.xfRem.toNat Config.ep0Size
  match memRead (sourceBytes s s.disp.xfSrc) s.disp.xfPtr.toNat n with
  | none => .fault .readOutsideSource
  | some bytes =>
    andThen (fifoWriteAll bytes s) fun s' =>
      let s'' := clearSendFlag s'
      .next { s'' with disp := advanceXfer n s''.disp }

/-- The P_IN_LOOP step (R244): SETUP first, then OUT, then send. -/
def execPInLoop (s : State) : Result :=
  if InLoopEnabled s then
    onEp0 (fun s =>
      if isSetupPending s then .next (endDispatch s)
      else if isReceivePending s then .next (setPhase .stOut s)
      else sendChunk s) s
  else .refused .notEnabled

/-- The P_ST_OUT step (R245), the status stage of a device-to-host request. -/
def execPStOut (s : State) : Result :=
  if StOutEnabled s then onEp0 (fun s => .next (endDispatch (clearReceiveFlag s))) s else .refused .notEnabled

/-- `APPLY_CFG(v)` (R213, R214). -/
def applyCfg (v : Byte) (s : State) : State :=
  let s1 := { s with ctl := { s.ctl with cfgValue := v } }
  if v = 1 ∧ s.ctl.enumState = .addressed then
    let s2 := configureEndpoint s.par.kbdEp s1
    if cfgAnswer s then
      { s2 with ctl := { s2.ctl with enumState := .configured, idleDuration := Config.idleDefault,
                                     idleRemaining := 0 } }
    else s2
  else if v = 0 ∧ s.ctl.enumState = .configured then
    { s1 with ctl := { s1.ctl with enumState := .addressed } }
  else s1

/-- The effect of `post` in the status stage, and the phase that follows (R246). -/
def applyPost (s : State) : State :=
  match s.disp.post with
  | .none => endDispatch s
  | .addr _ => setPhase .addrAck s
  | .cfg v => endDispatch (applyCfg v s)
  | .idle d => endDispatch { s with ctl := { s.ctl with idleDuration := d } }
  | .proto b => endDispatch { s with ctl := { s.ctl with protocolMode := b } }

/-- The P_ST_IN step (R246), the status stage of a host-to-device request: the packet is committed before the effect
is applied. -/
def execPStIn (s : State) : Result :=
  if SendPhaseEnabled .stIn s then onEp0 (fun s => .next (applyPost (clearSendFlag s))) s
  else .refused .notEnabled

/-- The P_ADDR_ACK step (R204): address and enable bit together, then the state. Without a latched address no rule
gives a step. -/
def execPAddrAck (s : State) : Result :=
  if SendPhaseEnabled .addrAck s then
    onEp0 (fun s =>
      match s.disp.post with
      | .addr a =>
        let s' := writeAddress a s
        .next (endDispatch { s' with ctl := { s'.ctl with enumState := .addressed } })
      | .none | .cfg _ | .idle _ | .proto _ => .refused .notEnabled) s
  else .refused .notEnabled

/-- One OUT packet of SET_REPORT's data discarded (R263). -/
def drainPacket (s : State) : State :=
  let n := s.ep0.fifo.length
  let s' := clearReceiveFlag s
  let rem := s.disp.xfRem.toNat - min n s.disp.xfRem.toNat
  if rem = 0 ∨ n < Config.ep0Size then
    { s' with disp := { s'.disp with xfRem := BitVec.ofNat 16 rem, post := .none, dphase := .stIn } }
  else { s' with disp := { s'.disp with xfRem := BitVec.ofNat 16 rem, dphase := .outDrain } }

/-- The P_OUT_DRAIN step (R263). -/
def execPOutDrain (s : State) : Result :=
  if OutDrainEnabled s then
    onEp0 (fun s => if isSetupPending s then .next (endDispatch s) else .next (drainPacket s)) s
  else .refused .notEnabled

end Sys2Proof.Machine
end

