-- ==== Sys2Proof/Machine/Primitives.lean ====
section
/-! DEFINITION. The primitives as operations of their own (spec/40 R142 to R157, spec/46 R301): the named operations
of Ops.lean under the selection they are defined for (R157), the value they return held in `answer`. -/

namespace Sys2Proof.Machine

/-- Hand a returned value to the caller. -/
def reply (a : Answer) (s : State) : State := { s with answer := a }

/-- Run an operation that is defined for the keyboard endpoint only (R157). -/
def onKbdEp (k : State → Result) (s : State) : Result :=
  if s.epSel = s.par.kbdEp then k s else .refused .wrongEndpoint

/-- Run an operation on the FIFO of the selected endpoint: the block has two FIFOs (R70, R146). -/
def onFifo (k : State → Result) (s : State) : Result :=
  if s.epSel = 0 ∨ s.epSel = s.par.kbdEp then k s else .refused .wrongEndpoint

/-- select_endpoint(n) (R142). -/
def execSelectEndpoint (n : EpNum) (s : State) : Result := .next (selectEndpoint n s)

/-- is_setup_pending() (R143). -/
def execIsSetupPending (s : State) : Result := onEp0 (fun s => .next (reply (.bit (isSetupPending s)) s)) s

/-- is_send_ready() (R144). -/
def execIsSendReady (s : State) : Result := onEp0 (fun s => .next (reply (.bit (isSendReady s)) s)) s

/-- is_receive_pending() (R145). -/
def execIsReceivePending (s : State) : Result := onEp0 (fun s => .next (reply (.bit (isReceivePending s)) s)) s

/-- fifo_read() (R146). -/
def execFifoRead (s : State) : Result :=
  onFifo (fun s => .next (reply (.byte (fifoRead s).1) (fifoRead s).2)) s

/-- fifo_write(b) (R147). -/
def execFifoWrite (b : Byte) (s : State) : Result := onFifo (fifoWrite b) s

/-- clear_setup_flag() (R148). -/
def execClearSetupFlag (s : State) : Result := onEp0 (fun s => .next (clearSetupFlag s)) s

/-- clear_send_flag() (R149). -/
def execClearSendFlag (s : State) : Result := onEp0 (fun s => .next (clearSendFlag s)) s

/-- clear_receive_flag() (R150). -/
def execClearReceiveFlag (s : State) : Result := onEp0 (fun s => .next (clearReceiveFlag s)) s

/-- stall() (R151). -/
def execStall (s : State) : Result := onEp0 (fun s => .next (stall s)) s

/-- sync_status_stage(dir) (R152): while its flag is 0 the call waits, and no step is enabled. -/
def execSyncStatusStage (dir : Direction) (s : State) : Result :=
  onEp0 (fun s =>
    match dir with
    | .d2h => if isReceivePending s then .next (clearReceiveFlag s) else .refused .notEnabled
    | .h2d => if isSendReady s then .next (clearSendFlag s) else .refused .notEnabled) s

/-- write_address(a) (R153). -/
def execWriteAddress (a : UsbAddr) (s : State) : Result := .next (writeAddress a s)

/-- configure_endpoint(e) (R154), e being 0 or KBD_EP. -/
def execConfigureEndpoint (e : EpNum) (s : State) : Result :=
  if e = 0 ∨ e = s.par.kbdEp then .next (reply (.bit (cfgAnswer s)) (configureEndpoint e s))
  else .refused .badOperand

/-- kbd_ready() (R155). -/
def execKbdReady (s : State) : Result := onKbdEp (fun s => .next (reply (.bit (kbdReady s)) s)) s

/-- kbd_rearm() (R156). -/
def execKbdRearm (s : State) : Result := onKbdEp (fun s => .next (kbdRearm s)) s

/-- set_direction, set_level, read_level (R301), on a row or column the matrix has. -/
def execPinOp (op : PinOp) (s : State) : Result :=
  match op with
  | .setDirection r out => if r < s.par.rows then .next (setDirection r out s) else .refused .badOperand
  | .setLevel r level => if r < s.par.rows then .next (setLevel r level s) else .refused .badOperand
  | .readLevel c => if c < s.par.cols then .next (reply (.bit (readLevel s c)) s) else .refused .badOperand

end Sys2Proof.Machine
end

