-- ==== Sys2Proof/Machine/Report.lean ====
section
/-! DEFINITION. The periodic report send, the last step of the main loop (spec/45 R285 to R290). -/

namespace Sys2Proof.Machine

/-- The send is authorized (R285): Configured, and the countdown at 0. -/
abbrev SendDue (s : State) : Prop := s.ctl.enumState = .configured ∧ s.ctl.idleRemaining = 0

/-- The main loop's position for the next scan (R285, R290). -/
def restartScan (s : State) : State :=
  { s with scan := { s.scan with mphase := .scan, scanRow := 0, scanAcc := false } }

/-- The critical section of R285: select, test, write the report, re-arm, reload. A busy endpoint is left alone
(R287). -/
def trySend (s : State) : Result :=
  if SendDue s then
    let s1 := selectEndpoint s.par.kbdEp s
    if kbdReady s1 then
      andThen (fifoWriteAll (reportBytes s1.krs) s1) fun s2 =>
        let s3 := kbdRearm s2
        .next { s3 with ctl := { s3.ctl with idleRemaining := s3.ctl.idleDuration } }
    else .next s1
  else .next s

/-- The REPORT_SEND step (R285). -/
def execReportSend (s : State) : Result :=
  if MainEnabled .send s then andThen (trySend s) fun s' => .next (restartScan s')
  else .refused .notEnabled

end Sys2Proof.Machine
end

