-- ==== Sys2Proof/Machine/Dispatch.lean ====
section
/-! DEFINITION. exec: one arm per row of spec/opcode_table.json. -/

namespace Sys2Proof.Machine

/-- One step of one operation. -/
def exec (i : Instr) (s : State) : Host.Outcome State Fault Refusal :=
  match i with
  | .getReport value index length => Sys2Proof.Machine.execGetReport value index length s
  | .getIdle value index length => Sys2Proof.Machine.execGetIdle value index length s
  | .getProtocol value index length => Sys2Proof.Machine.execGetProtocol value index length s
  | .setReport value index length => Sys2Proof.Machine.execSetReport value index length s
  | .setIdle value index length => Sys2Proof.Machine.execSetIdle value index length s
  | .setProtocol value index length => Sys2Proof.Machine.execSetProtocol value index length s
  | .getStatusDevice value index length => Sys2Proof.Machine.execGetStatusDevice value index length s
  | .getStatusInterface value index length => Sys2Proof.Machine.execGetStatusInterface value index length s
  | .getStatusEndpoint value index length => Sys2Proof.Machine.execGetStatusEndpoint value index length s
  | .clearFeatureDevice value index length => Sys2Proof.Machine.execClearFeatureDevice value index length s
  | .clearFeatureInterface value index length => Sys2Proof.Machine.execClearFeatureInterface value index length s
  | .clearFeatureEndpoint value index length => Sys2Proof.Machine.execClearFeatureEndpoint value index length s
  | .setFeatureDevice value index length => Sys2Proof.Machine.execSetFeatureDevice value index length s
  | .setFeatureInterface value index length => Sys2Proof.Machine.execSetFeatureInterface value index length s
  | .setFeatureEndpoint value index length => Sys2Proof.Machine.execSetFeatureEndpoint value index length s
  | .setAddress value index length => Sys2Proof.Machine.execSetAddress value index length s
  | .getDescriptorDevice itf dindex index length => Sys2Proof.Machine.execGetDescriptorDevice itf dindex index length s
  | .getDescriptorConfiguration itf dindex index length => Sys2Proof.Machine.execGetDescriptorConfiguration itf dindex index length s
  | .getDescriptorHid itf dindex index length => Sys2Proof.Machine.execGetDescriptorHid itf dindex index length s
  | .getDescriptorReport itf dindex index length => Sys2Proof.Machine.execGetDescriptorReport itf dindex index length s
  | .getDescriptorOther itf t dindex index length => Sys2Proof.Machine.execGetDescriptorOther itf t dindex index length s
  | .getConfiguration value index length => Sys2Proof.Machine.execGetConfiguration value index length s
  | .setConfiguration value index length => Sys2Proof.Machine.execSetConfiguration value index length s
  | .getInterface value index length => Sys2Proof.Machine.execGetInterface value index length s
  | .setInterface value index length => Sys2Proof.Machine.execSetInterface value index length s
  | .synchFrame value index length => Sys2Proof.Machine.execSynchFrame value index length s
  | .unmatched type req value index length => Sys2Proof.Machine.execUnmatched type req value index length s
  | .por => Sys2Proof.Machine.execPor s
  | .eor => Sys2Proof.Machine.execEor s
  | .sof => Sys2Proof.Machine.execSof s
  | .comm => Sys2Proof.Machine.execComm s
  | .pFxTx => Sys2Proof.Machine.execPFxTx s
  | .pInLoop => Sys2Proof.Machine.execPInLoop s
  | .pStOut => Sys2Proof.Machine.execPStOut s
  | .pStIn => Sys2Proof.Machine.execPStIn s
  | .pAddrAck => Sys2Proof.Machine.execPAddrAck s
  | .pOutDrain => Sys2Proof.Machine.execPOutDrain s
  | .scanRow => Sys2Proof.Machine.execScanRow s
  | .getState => Sys2Proof.Machine.execGetState s
  | .reportSend => Sys2Proof.Machine.execReportSend s
  | .hostSetup b => Sys2Proof.Machine.execHostSetup b s
  | .hostIn0 => Sys2Proof.Machine.execHostIn0 s
  | .hostOut p => Sys2Proof.Machine.execHostOut p s
  | .busReset => Sys2Proof.Machine.execBusReset s
  | .sofTick => Sys2Proof.Machine.execSofTick s
  | .spuriousComm => Sys2Proof.Machine.execSpuriousComm s
  | .hostInk => Sys2Proof.Machine.execHostInk s
  | .keys r c v => Sys2Proof.Machine.execKeys r c v s
  | .hostStalled => Sys2Proof.Machine.execHostStalled s
  | .selectEndpoint n => Sys2Proof.Machine.execSelectEndpoint n s
  | .isSetupPending => Sys2Proof.Machine.execIsSetupPending s
  | .isSendReady => Sys2Proof.Machine.execIsSendReady s
  | .isReceivePending => Sys2Proof.Machine.execIsReceivePending s
  | .fifoRead => Sys2Proof.Machine.execFifoRead s
  | .fifoWrite b => Sys2Proof.Machine.execFifoWrite b s
  | .clearSetupFlag => Sys2Proof.Machine.execClearSetupFlag s
  | .clearSendFlag => Sys2Proof.Machine.execClearSendFlag s
  | .clearReceiveFlag => Sys2Proof.Machine.execClearReceiveFlag s
  | .stall => Sys2Proof.Machine.execStall s
  | .syncStatusStage dir => Sys2Proof.Machine.execSyncStatusStage dir s
  | .writeAddress a => Sys2Proof.Machine.execWriteAddress a s
  | .configureEndpoint e => Sys2Proof.Machine.execConfigureEndpoint e s
  | .kbdReady => Sys2Proof.Machine.execKbdReady s
  | .kbdRearm => Sys2Proof.Machine.execKbdRearm s
  | .setDirectionSetLevelReadLevel op => Sys2Proof.Machine.execPinOp op s

end Sys2Proof.Machine
end

