-- ==== Sys2Proof/Machine/Schedule.lean ====
section
/-! DEFINITION. Which step is taken next (spec/60 R344, spec/20 R80): a placed one, else any; and the placing of a
request where the COMM entry step fetches it. -/

namespace Sys2Proof.Machine

/-- The step or move whose turn it is: the first placed one, else a free one (R344, U17). -/
def nextMove (s : State) : Instr :=
  match s.sched with
  | i :: _ => i
  | [] => Config.freeMove s.turn

/-- The turn is used up. -/
def passTurn (s : State) : State := { s with sched := s.sched.tail, turn := s.turn + 1 }

/-- A turn given to a step that is not enabled, or to a move that is not possible, passes with no effect. -/
def orPass (s : State) (o : Result) : Result :=
  match o with
  | .refused .notEnabled | .refused .moveImpossible | .refused .badOperand => .next s
  | .next t => .next t
  | .fault f => .fault f
  | .refused r => .refused r

/-- The packet `bytes` stands pending in `fifo0`, and the next turn is the COMM entry step's, enabled. -/
def placeRequest (bytes : List Byte) (s : State) : State :=
  { s with
    ep0 := { s.ep0 with fifo := bytes, setupPend := true }
    ev := { eorPend := false, sofPend := false, commPend := true }
    disp := { s.disp with dphase := .idle }
    sched := .comm :: s.sched }

end Sys2Proof.Machine
end

