-- ==== Sys2Proof/Machine/Step.lean ====
section
/-! DEFINITION. One step of the machine (spec/60 R344): the placed step or move, else any one, is taken if it is
enabled; otherwise the turn passes. Requests and primitives are run inside the steps that call them (R100, R140,
R180), never as a turn of their own. -/

namespace Sys2Proof.Machine

/-- One step. -/
def step (s : State) : Host.Outcome State Fault Refusal :=
  let i := nextMove s
  let s' := passTurn s
  if i.isAgentStep then orPass s' (exec i s') else .next s'

/-- `s` with the request whose opcode-table word is `w` pending in `fifo0` and the COMM entry step, which fetches and
runs it, the next turn (log entry 7). -/
def State.withFetchWord (s : State) (nbits w : Nat) : State := placeRequest (tablePacket nbits w) s

end Sys2Proof.Machine
end

