-- ==== Sys2Proof/Safety.lean ====
section
/-! DEFINITION. The vocabulary of the claims: the invariant of the block, the host's duty H7, the states a wait never
leaves, and the packets of a chunked transfer. -/

namespace Sys2Proof.Machine

/-- A value of `idle_duration` (spec/10 R28): one of 0, 4, 8, ..., 1020. -/
def IdleUnits (d : Word16) : Prop := d.toNat % 4 = 0 ∧ d.toNat ≤ 1020

/-- What a pending effect may hold: SET_CONFIGURATION latches 0 or 1 (R212, R213), SET_IDLE a multiple of 4 up to
1020 (R264). -/
def Latched : PostEffect → Prop
  | .none => True
  | .addr _ => True
  | .cfg v => v = 0 ∨ v = 1
  | .idle d => IdleUnits d
  | .proto _ => True

/-- What holds at each phase of the dispatcher (spec/41 R189): the transfer registers of the phase are those its
handler wrote. -/
def PhaseInv (s : State) : Prop :=
  match s.disp.dphase with
  | .idle => True
  | .fxTx => 1 ≤ s.disp.fx.length ∧ s.disp.fx.length ≤ 2
  | .inLoop =>
    s.disp.xfPtr.toNat + s.disp.xfRem.toNat ≤ sourceLen s s.disp.xfSrc ∧ (s.disp.xfRem ≠ 0 ∨ s.disp.xfZlp = true)
  | .stOut => True
  | .stIn => Latched s.disp.post
  | .addrAck => ∃ a, s.disp.post = .addr a
  | .outDrain => s.disp.xfRem ≠ 0

/-- The invariant of the block: what the rules say holds between two steps. -/
structure Inv (s : State) : Prop where
  /-- R7: the parameters are in their ranges. -/
  params : s.par.wf
  /-- R302: every row is an input. -/
  rowsInput : s.pins.rowDir = List.replicate s.par.rows false
  rowLevels : s.pins.rowLvl.length = s.par.rows
  /-- R32, R33, R54: the arrays are ROWS × COLS. -/
  matrixShape : Grid.Shaped s.scan.matrix s.par.rows s.par.cols
  counterShape : Grid.Shaped s.scan.dbCnt s.par.rows s.par.cols
  switchShape : Grid.Shaped s.sw s.par.rows s.par.cols
  /-- R33: a counter is 0 to DEBOUNCE_SCANS - 1. -/
  counters : ∀ row ∈ s.scan.dbCnt, ∀ n ∈ row, n < s.par.debounceScans
  /-- R24: `scan_row` is 0 to ROWS - 1. -/
  scanRow : s.scan.scanRow < s.par.rows
  /-- R27: only 0 and 1 are ever written. -/
  cfgValue : s.ctl.cfgValue = 0 ∨ s.ctl.cfgValue = 1
  /-- R28. -/
  idleDuration : IdleUnits s.ctl.idleDuration
  /-- R29: `idle_remaining ≤ 1020`. -/
  idleRemaining : s.ctl.idleRemaining.toNat ≤ 1020
  /-- R44: while endpoint 0 is configured, `tx_ready = 1` exactly when `in_pkt0 = none`. -/
  txReady : s.ep0.cfg = true → (s.ep0.txReady = true ↔ s.ep0.inPkt = none)
  /-- R47: `fifo0` holds 0 to 64 bytes. -/
  fifoSize : s.ep0.fifo.length ≤ Config.ep0Size
  /-- R336: `setup_pend = 0` and `rx_pend = 0` imply that `fifo0` is empty. -/
  fifoEmpty : s.ep0.setupPend = false → s.ep0.rxPend = false → s.ep0.fifo = []
  /-- A pending SETUP's bytes, unread or gone (R160, R384). -/
  setupFifo : s.ep0.setupPend = true → s.ep0.fifo.length ≤ 8 ∧ s.ep0.rxPend = false
  /-- R48. -/
  inPktSize : ∀ p, s.ep0.inPkt = some p → p.length ≤ Config.ep0Size
  /-- R336: every re-arm and every configuration leaves `kbd_fifo` empty. -/
  kbdFifo : s.kbd.fifo = []
  /-- R52: a committed report is exactly 8 bytes. -/
  kbdInPkt : ∀ p, s.kbd.inPkt = some p → p.length = Config.kbdReportLen
  /-- R50: while the keyboard endpoint is configured, it is ready exactly when no report waits to be collected. -/
  kbdRwal : s.kbd.cfg = true → (s.kbd.rwal = true ↔ s.kbd.inPkt = none)
  /-- R180: the dispatcher works on endpoint 0. -/
  ep0Selected : s.disp.dphase ≠ .idle → s.epSel = 0
  phase : PhaseInv s

/-- The state in which the COMM entry step starts a handler (spec/41 R180): no dispatch in progress, the SETUP pending,
endpoint 0 selected. -/
abbrev HandlerStarts (s : State) : Prop :=
  s.disp.dphase = .idle ∧ s.ep0.setupPend = true ∧ s.epSel = 0

/-- Endpoint 0 once the SETUP is consumed (R148, R187). -/
def consumed (e : ControlEp) : ControlEp := { e with setupPend := false, fifo := [] }

/-- Endpoint 0 once its FIFO is committed as one IN packet (R149). -/
def committed (e : ControlEp) : ControlEp := { e with inPkt := some e.fifo, fifo := [], txReady := false }

/-- The state after the endpoint controller answered a `configure_endpoint` (R154): the answer is used up and `ep_sel`
is any value. -/
def afterConfigure (s : State) : State :=
  { s with epSel := Config.freeEpSel s.draws, draws := s.draws + 1, cfgAnswers := s.cfgAnswers.tail }

/-- The cell after its row was visited (R305): the stored value and the count, from the sample, the stored value and
the count before, and DEBOUNCE_SCANS. -/
def filtered (scans : Nat) (sample stored : Bool) (count : Nat) : Bool × Nat :=
  if sample = stored then (stored, 0) else if scans ≤ count + 1 then (sample, 0) else (stored, count + 1)

/-- A keycode of the modifier range (R310). -/
def isModifier (k : Byte) : Bool := decide (0xE0 ≤ k.toNat ∧ k.toNat ≤ 0xE7)

/-- The arrays of a state have the sizes of its parameters, and its rows are inputs (R32, R33, R53, R54, R302). -/
def MatrixReady (s : State) : Prop :=
  s.pins.rowDir = List.replicate s.par.rows false ∧ s.pins.rowLvl.length = s.par.rows ∧
  Grid.Shaped s.scan.matrix s.par.rows s.par.cols ∧ Grid.Shaped s.scan.dbCnt s.par.rows s.par.cols ∧
  s.scan.scanRow < s.par.rows

/-- The host's duty H7 (spec/40 R169), as it shows in a state: no OUT packet with a payload arrives while a fixed
reply waits. -/
def DutyH7 (s : State) : Prop := s.disp.dphase = .fxTx → s.ep0.rxPend = true → s.ep0.fifo = []

/-- A bus reset arrived during a dispatch (spec/70 R386): endpoint 0 is not configured and no flag is set. -/
def StuckAfterReset (s : State) : Prop :=
  s.disp.dphase ≠ .idle ∧ s.ep0.cfg = false ∧ s.ep0.setupPend = false ∧ s.ep0.txReady = false ∧
  s.ep0.rxPend = false

/-- A SETUP arrived while the block waits for the status OUT packet (spec/70 R385). -/
def StuckInStatusOut (s : State) : Prop :=
  s.disp.dphase = .stOut ∧ s.ep0.rxPend = false ∧ (s.ep0.setupPend = true ∨ s.ep0.cfg = false)

/-- The IN packets of a chunked transfer of `bytes` (spec/43 R248): 64 bytes each while more than 64 remain, then the
rest; after a last packet of 64 bytes a zero-length one if `zlp` owes it. `fuel` bounds the number of packets. -/
def packets : (fuel : Nat) → (bytes : List Byte) → (zlp : Bool) → List (List Byte)
  | 0, _, _ => []
  | fuel + 1, bytes, zlp =>
    if bytes = [] then (if zlp then [[]] else [])
    else bytes.take Config.ep0Size :: packets fuel (bytes.drop Config.ep0Size) zlp

/-- A host that collects every packet of a chunked transfer: P_IN_LOOP and HOST_IN0 in turn, at most `n` times, until
the data stage is over. -/
def collectTransfer : Nat → State → Result
  | 0, s => .next s
  | n + 1, s =>
    if s.disp.dphase = .inLoop then
      andThen (exec .pInLoop s) fun t => andThen (exec .hostIn0 t) (collectTransfer n)
    else .next s

/-- The phase graph (spec/41 R189): `dphase` after a step that stands at the first phase before it; a phase may also
stay (P_IN_LOOP, P_OUT_DRAIN, and every step that does not touch it). -/
def phaseEdge : DPhase → DPhase → Bool
  | .idle, .fxTx | .idle, .inLoop | .idle, .stOut | .idle, .stIn | .idle, .outDrain => true
  | .fxTx, .stOut => true
  | .inLoop, .idle | .inLoop, .stOut => true
  | .stOut, .idle => true
  | .stIn, .addrAck | .stIn, .idle => true
  | .addrAck, .idle => true
  | .outDrain, .idle | .outDrain, .stIn => true
  | a, b => a == b

end Sys2Proof.Machine
end

