-- ==== Sys2Proof/Certificates/Slice0/Obligations.lean ====
section
/-! DEFINITION. The statements for the provers. Each docstring names the rule or the section of spec/ it formalises. -/

open Sys2Proof Sys2Proof.Machine

/-! ## Encoding -/

/-- spec/30 R101, R107 to R110: no bit of a request is lost. -/
def Obligations.DecodeInvertsEncode : Prop :=
  ∀ (p : Params) (i : Instr) (bytes : List Byte), i.wf p = true → encode i = some bytes → decode bytes = .ok i

/-- spec/30 R100, R109: eight bytes, whichever they are, decode to a well-formed request, and no other well-formed
request has this packet; any other number of bytes is rejected by name. -/
def Obligations.DecodeIsTotalOnPackets : Prop :=
  ∀ (p : Params) (bytes : List Byte),
    (bytes.length = 8 →
      ∃ i, decode bytes = .ok i ∧ encode i = some bytes ∧ i.wf p = true ∧ i.isRequest = true ∧
        ∀ j : Instr, j.wf p = true → encode j = some bytes → j = i) ∧
    (bytes.length ≠ 8 → decode bytes = .error (.notEightBytes bytes.length))

/-- spec/30 R109: no packet matches both tables, so the order of the search cannot change which handler runs. The
numeric codes and bit positions are general knowledge (log entry 8, PRESUMED; decision D6 of spec/92). -/
def Obligations.NoPacketMatchesBothTables : Prop :=
  ∀ r : SetupRequest, classLookup r = none ∨ standardLookup r = none

/-- spec/30 R110: UNMATCHED is every packet whose type and request code are no row's key; in particular the vendor and
reserved types, the recipients above 2, class requests to another recipient or with another code, and the standard
codes without a row. The recipients of each row are decision D7 of spec/92, the numeric codes D6. -/
def Obligations.UnmatchedPackets : Prop :=
  ∀ r : SetupRequest,
    let typ := (r.type.extractLsb' 5 2).toNat
    let rcp := (r.type.extractLsb' 0 5).toNat
    let isUnmatched : Prop := decodeRequest r = .unmatched r.type r.req r.value r.index r.length
    ((r.type, r.req) ∉ rowKeys ↔ isUnmatched) ∧
    (2 ≤ typ → isUnmatched) ∧
    (3 ≤ rcp → isUnmatched) ∧
    (typ = 1 → rcp ≠ 1 → isUnmatched) ∧
    (typ = 1 → r.req ∉ [0x01, 0x02, 0x03, 0x09, 0x0A, 0x0B] → isUnmatched) ∧
    (typ = 0 → r.req ∈ [0x02, 0x04, 0x07] ∨ 0x0D ≤ r.req.toNat → isUnmatched)

/-- Words written out from spec/30 R101, R107, R108 (spec/95 V-E), one of each kind: a sanity statement. The numeric
codes and bit positions are general knowledge (log entry 8, PRESUMED; decision D6 of spec/92), the recipients
decision D7. -/
def Obligations.SampleWordsDecode : Prop :=
  decodeTableWord 64 0x0012000001000680 = some (.getDescriptorDevice false 0 0 18) ∧
  decodeTableWord 64 0x0009040902050680 = some (.getDescriptorConfiguration false 5 0x0409 9) ∧
  decodeTableWord 64 0x00FF000003000680 = some (.getDescriptorOther false 3 0 0 255) ∧
  decodeTableWord 64 0x0000000000070500 = some (.setAddress 7 0 0) ∧
  decodeTableWord 64 0x0000008100000102 = some (.clearFeatureEndpoint 0 0x81 0) ∧
  decodeTableWord 64 0x000000007D000A21 = some (.setIdle 0x7D00 0 0) ∧
  decodeTableWord 64 0x00080000010001A0 = some (.unmatched 0xA0 0x01 0x0100 0 8)

/-! ## Requests: what the entry step does -/

/-- spec/42 R202, R203, R216 with spec/43 R240, R246: CLEAR_FEATURE, SET_FEATURE and SET_INTERFACE are acknowledged as
no-ops, whatever their operands: by their constructors, by their keys (request type and code), and up to the
zero-length packet of the status stage. The numeric codes and bit positions are general knowledge (log entry 8,
PRESUMED; decision D6 of spec/92), the recipients decision D7, the order inside a handler decision D10. -/
def Obligations.NoOpRequestsAreAcknowledged : Prop :=
  ∀ (v x l : Word16) (s : State), HandlerStarts s →
    let t : State := { s with ep0 := consumed s.ep0, disp := { s.disp with post := .none, dphase := .stIn } }
    exec (.clearFeatureDevice v x l) s = .next t ∧ exec (.clearFeatureInterface v x l) s = .next t ∧
    exec (.clearFeatureEndpoint v x l) s = .next t ∧ exec (.setFeatureDevice v x l) s = .next t ∧
    exec (.setFeatureInterface v x l) s = .next t ∧ exec (.setFeatureEndpoint v x l) s = .next t ∧
    exec (.setInterface v x l) s = .next t ∧
    (∀ r : SetupRequest,
      (r.type, r.req) ∈ [((0x00 : Byte), (0x01 : Byte)), (0x01, 0x01), (0x02, 0x01), (0x00, 0x03), (0x01, 0x03),
        (0x02, 0x03), (0x01, 0x0B)] → exec (decodeRequest r) s = .next t) ∧
    (s.ep0.txReady = true → exec .pStIn t = .next { s with
      ep0 := { consumed s.ep0 with inPkt := some [], txReady := false }
      disp := { s.disp with post := .none, dphase := .idle } })

/-- spec/42 R201, R215 with spec/43 R241: GET_STATUS replies two zero bytes for each recipient, GET_INTERFACE one,
whatever the operands: by their constructors, by their keys, and up to the packet that carries the reply. That the
reply is sent whole whatever wLength is, is decision D11 of spec/92. The numeric codes and bit positions are
general knowledge (log entry 8, PRESUMED; decision D6 of spec/92), the recipient of GET_INTERFACE decision D7. -/
def Obligations.ZeroReplies : Prop :=
  ∀ (v x l : Word16) (s : State), HandlerStarts s →
    let t (bytes : List Byte) : State :=
      { s with ep0 := consumed s.ep0, disp := { s.disp with fx := bytes, dphase := .fxTx } }
    exec (.getStatusDevice v x l) s = .next (t [0x00, 0x00]) ∧
    exec (.getStatusInterface v x l) s = .next (t [0x00, 0x00]) ∧
    exec (.getStatusEndpoint v x l) s = .next (t [0x00, 0x00]) ∧
    exec (.getInterface v x l) s = .next (t [0x00]) ∧
    (∀ r : SetupRequest, r.type ∈ [(0x80 : Byte), 0x81, 0x82] → r.req = 0x00 →
      exec (decodeRequest r) s = .next (t [0x00, 0x00])) ∧
    (∀ r : SetupRequest, r.type = 0x81 → r.req = 0x0A → exec (decodeRequest r) s = .next (t [0x00])) ∧
    (s.ep0.txReady = true → ∀ bytes ∈ [[(0x00 : Byte), 0x00], [0x00]], exec .pFxTx (t bytes) = .next { s with
      ep0 := { consumed s.ep0 with inPkt := some bytes, txReady := false }
      disp := { s.disp with fx := bytes, dphase := .stOut } })

/-- spec/44 R262, R265: GET_IDLE replies the remaining countdown in 4 ms units, GET_PROTOCOL 01 or 00. The two reply
bytes are decisions D19 and D20 of spec/92. -/
def Obligations.IdleAndProtocolReplies : Prop :=
  ∀ (v x l : Word16) (s : State), HandlerStarts s →
    let t (b : Byte) : State :=
      { s with ep0 := consumed s.ep0, disp := { s.disp with fx := [b], dphase := .fxTx } }
    exec (.getIdle v x l) s = .next (t (BitVec.ofNat 8 (s.ctl.idleRemaining.toNat / 4))) ∧
    exec (.getProtocol v x l) s = .next (t (if s.ctl.protocolMode = true then 0x01 else 0x00))

/-- spec/44 R264, R266 with spec/43 R240, R246: SET_IDLE leaves 4 n ticks (n the high byte of wValue) for the status
stage, SET_PROTOCOL whether wValue is 1; the P_ST_IN step then writes `idle_duration` or `protocol_mode` and no
other control register. That the effect waits for the status stage is decision D10 of spec/92; that SET_IDLE is
taken literally is decision D19. The numeric codes and bit positions are general knowledge (log entry 8, PRESUMED;
decision D6 of spec/92). -/
def Obligations.IdleAndProtocolAreSet : Prop :=
  ∀ (v x l : Word16) (s : State), HandlerStarts s →
    let t (p : PostEffect) : State :=
      { s with ep0 := consumed s.ep0, disp := { s.disp with post := p, dphase := .stIn } }
    let u (p : PostEffect) (c : Control) : State :=
      { s with
        ep0 := { consumed s.ep0 with inPkt := some [], txReady := false }
        disp := { s.disp with post := p, dphase := .idle }
        ctl := c }
    let d : Word16 := BitVec.ofNat 16 (4 * (v.toNat / 256))
    let b : Bool := decide (v.toNat = 1)
    exec (.setIdle v x l) s = .next (t (.idle d)) ∧
    exec (.setProtocol v x l) s = .next (t (.proto b)) ∧
    (∀ r : SetupRequest, r.type = 0x21 → r.value = v →
      (r.req = 0x0A → exec (decodeRequest r) s = .next (t (.idle d))) ∧
      (r.req = 0x0B → exec (decodeRequest r) s = .next (t (.proto b)))) ∧
    (s.ep0.txReady = true →
      exec .pStIn (t (.idle d)) = .next (u (.idle d) { s.ctl with idleDuration := d }) ∧
      exec .pStIn (t (.proto b)) = .next (u (.proto b) { s.ctl with protocolMode := b }))

/-- spec/42 R204, entry step: the address is the value's low 7 bits, and it waits for the status stage. That every
effect waits for the status stage is decision D10 of spec/92. -/
def Obligations.AddressIsLatched : Prop :=
  ∀ (v x l : Word16) (s : State), HandlerStarts s →
    exec (.setAddress v x l) s = .next { s with
      ep0 := consumed s.ep0
      disp := { s.disp with post := .addr (BitVec.ofNat 7 (v.toNat % 128)), dphase := .stIn } }

/-- spec/42 R211, R212, R213, entry steps: a configuration value above 1 is ignored; else GET_CONFIGURATION replies
`cfg_value` and SET_CONFIGURATION leaves the value for the status stage. The test for GET_CONFIGURATION is
decision D14 of spec/92, what ignored means D9. -/
def Obligations.ConfigurationRequests : Prop :=
  ∀ (v x l : Word16) (s : State), HandlerStarts s →
    (1 < v.toNat →
      exec (.getConfiguration v x l) s = .next { s with ep0 := consumed s.ep0 } ∧
      exec (.setConfiguration v x l) s = .next { s with ep0 := consumed s.ep0 }) ∧
    (v.toNat ≤ 1 →
      exec (.getConfiguration v x l) s = .next { s with
        ep0 := consumed s.ep0, disp := { s.disp with fx := [s.ctl.cfgValue], dphase := .fxTx } } ∧
      exec (.setConfiguration v x l) s = .next { s with
        ep0 := consumed s.ep0
        disp := { s.disp with post := .cfg (BitVec.ofNat 8 v.toNat), dphase := .stIn } })

/-- spec/42 R206 to R209, spec/44 R261 with spec/43 R243: a chunked transfer starts, of min(wLength, L) bytes, owing a
zero-length packet by R247; with nothing to send it goes straight to the status stage. The transfer and its
zero-length packet are decision D12 of spec/92, what GET_REPORT returns D17. -/
def Obligations.ChunkedReadsStart : Prop :=
  ∀ (itf : Bool) (d : Byte) (v x l : Word16) (s : State), HandlerStarts s →
    let t (src : XferSource) (len : Nat) : State :=
      let n := min l.toNat len
      { s with
        ep0 := consumed s.ep0
        disp := { s.disp with
          xfSrc := src
          xfPtr := 0
          xfRem := BitVec.ofNat 16 n
          xfZlp := decide (0 < n ∧ n < l.toNat ∧ n % 64 = 0)
          dphase := if n = 0 then .stOut else .inLoop } }
    exec (.getDescriptorDevice itf d x l) s = .next (t .dev 18) ∧
    exec (.getDescriptorConfiguration itf d x l) s = .next (t .cfgTree 34) ∧
    exec (.getDescriptorHid itf d x l) s = .next (t .cfgHid 9) ∧
    exec (.getDescriptorReport itf d x l) s = .next (t .rpt s.par.reportDesc.length) ∧
    exec (.getReport v x l) s = .next (t .krs 8)

/-- spec/42 R210, R217 with spec/41 R186: an unknown descriptor type and SYNCH_FRAME are ignored. What ignored means
is decision D9 of spec/92. -/
def Obligations.IgnoredRequests : Prop :=
  ∀ (itf : Bool) (t d : Byte) (v x l : Word16) (s : State), HandlerStarts s →
    exec (.getDescriptorOther itf t d x l) s = .next { s with ep0 := consumed s.ep0 } ∧
    exec (.synchFrame v x l) s = .next { s with ep0 := consumed s.ep0 }

/-- spec/44 R263, entry step: SET_REPORT waits for its data, or acknowledges at once when there is none. That the data
is received and discarded is decision D18 of spec/92. -/
def Obligations.SetReportStarts : Prop :=
  ∀ (v x l : Word16) (s : State), HandlerStarts s →
    exec (.setReport v x l) s = .next { s with
      ep0 := consumed s.ep0
      disp := if l.toNat = 0 then { s.disp with post := .none, dphase := .stIn }
              else { s.disp with xfRem := l, dphase := .outDrain } }

/-- spec/41 R185: an unmatched request is consumed and endpoint 0 stalled. -/
def Obligations.UnmatchedRequestsStall : Prop :=
  ∀ (ty rq : Byte) (v x l : Word16) (s : State), HandlerStarts s →
    exec (.unmatched ty rq v x l) s = .next { s with ep0 := { consumed s.ep0 with stallReq := true } }

/-! ## The dispatcher's entry step -/

/-- spec/41 R181: an entry with no SETUP pending stalls endpoint 0 and changes nothing else but the latch and the
selection. -/
def Obligations.SpuriousEventStalls : Prop :=
  ∀ s : State, CommEnabled s → s.ep0.setupPend = false →
    exec .comm s = .next { s with
      ev := { s.ev with commPend := false }, epSel := 0, ep0 := { s.ep0 with stallReq := true } }

/-- spec/41 R180, R182: the entry step latches the packet, little-endian, and runs the handler of the decoded request.
That the request works from the latch is decision D8 of spec/92. -/
def Obligations.EntryRunsTheDecodedRequest : Prop :=
  ∀ (s : State) (b0 b1 b2 b3 b4 b5 b6 b7 : Byte) (i : Instr), CommEnabled s → s.ep0.setupPend = true →
    s.ep0.fifo = [b0, b1, b2, b3, b4, b5, b6, b7] → decode [b0, b1, b2, b3, b4, b5, b6, b7] = .ok i →
    exec .comm s = exec i { s with
      ev := { s.ev with commPend := false }
      epSel := 0
      ep0 := { s.ep0 with fifo := [] }
      disp := { s.disp with rq := {
        type := b0
        req := b1
        value := BitVec.ofNat 16 (b3.toNat * 256 + b2.toNat)
        index := BitVec.ofNat 16 (b5.toNat * 256 + b4.toNat)
        length := BitVec.ofNat 16 (b7.toNat * 256 + b6.toNat) } } }

/-- spec/41 R180: an enabled entry step completes whatever the FIFO holds, and the SETUP is consumed. A byte read from
an empty FIFO is any value by decision D30 of spec/92. -/
def Obligations.EntryCompletes : Prop :=
  ∀ s : State, CommEnabled s → ∃ t, exec .comm s = .next t ∧ t.ep0.setupPend = false ∧ t.ev.commPend = false

/-! ## The phases -/

/-- spec/43 R241: the reply is written and committed as one packet; then the block waits for the status OUT. The reply
is sent whole by decision D11 of spec/92. -/
def Obligations.FixedReplyIsCommitted : Prop :=
  ∀ s : State, s.disp.dphase = .fxTx → s.ep0.txReady = true → s.epSel = 0 →
    s.ep0.fifo.length + s.disp.fx.length ≤ 64 →
    exec .pFxTx s = .next { s with
      ep0 := { s.ep0 with inPkt := some (s.ep0.fifo ++ s.disp.fx), fifo := [], txReady := false }
      disp := { s.disp with dphase := .stOut } }

/-- spec/60 R336, spec/40 R147: the reply that does not fit into `fifo0` beside an unread payload is a fault (log
entry 19). The fault is decision D30 of spec/92. -/
def Obligations.FixedReplyOverruns : Prop :=
  ∀ s : State, s.disp.dphase = .fxTx → s.ep0.txReady = true → s.epSel = 0 → s.ep0.fifo.length ≤ 64 →
    64 < s.ep0.fifo.length + s.disp.fx.length → exec .pFxTx s = .fault .fifoOverrun

/-- spec/43 R244: a pending SETUP abandons the transfer, and failing that a pending OUT ends the data stage; nothing
is cleared. The order of the tests is decision D12 of spec/92. -/
def Obligations.TransferLoopExitsEarly : Prop :=
  ∀ s : State, s.disp.dphase = .inLoop → s.epSel = 0 →
    (s.ep0.setupPend = true → exec .pInLoop s = .next { s with disp := { s.disp with dphase := .idle } }) ∧
    (s.ep0.setupPend = false → s.ep0.rxPend = true →
      exec .pInLoop s = .next { s with disp := { s.disp with dphase := .stOut } })

/-- spec/43 R244: otherwise one IN packet of at most 64 bytes of the source is committed, and the loop goes on until
neither bytes nor a zero-length packet are owed. The loop is decision D12 of spec/92. -/
def Obligations.TransferLoopSendsOnePacket : Prop :=
  ∀ s : State, s.disp.dphase = .inLoop → s.epSel = 0 → s.ep0.setupPend = false → s.ep0.rxPend = false →
    s.ep0.txReady = true → s.ep0.fifo = [] →
    let n := min s.disp.xfRem.toNat 64
    s.disp.xfPtr.toNat + n ≤ (sourceBytes s s.disp.xfSrc).length →
    exec .pInLoop s = .next { s with
      ep0 := { s.ep0 with
        inPkt := some (((sourceBytes s s.disp.xfSrc).drop s.disp.xfPtr.toNat).take n), txReady := false }
      disp := { s.disp with
        xfPtr := BitVec.ofNat 16 (s.disp.xfPtr.toNat + n)
        xfRem := BitVec.ofNat 16 (s.disp.xfRem.toNat - n)
        xfZlp := decide (n ≠ 0) && s.disp.xfZlp
        dphase := if s.disp.xfRem.toNat = n ∧ (n = 0 ∨ s.disp.xfZlp = false) then .stOut else .inLoop } }

/-- spec/43 R242: the five sources and their lengths, for parameters of the sizes of R7. -/
def Obligations.TransferSources : Prop :=
  ∀ s : State, s.par.wf →
    sourceBytes s .dev = s.par.devDesc.take 18 ∧
    sourceBytes s .cfgTree = s.par.cfgBlob.take 34 ∧
    sourceBytes s .cfgHid = (s.par.cfgBlob.drop 18).take 9 ∧
    sourceBytes s .rpt = s.par.reportDesc ∧
    sourceBytes s .krs = [s.krs.mod, 0x00, s.krs.k0, s.krs.k1, s.krs.k2, s.krs.k3, s.krs.k4, s.krs.k5] ∧
    ∀ src, (sourceBytes s src).length = sourceLen s src

/-- spec/43 R245: the status OUT packet is cleared and the dispatch ends. -/
def Obligations.StatusOutEndsTheDispatch : Prop :=
  ∀ s : State, s.disp.dphase = .stOut → s.ep0.rxPend = true → s.epSel = 0 →
    exec .pStOut s = .next { s with
      ep0 := { s.ep0 with rxPend := false, fifo := [] }, disp := { s.disp with dphase := .idle } }

/-- spec/43 R246: the status packet is committed, then the effect of a request other than SET_CONFIGURATION is
applied; SET_ADDRESS only moves on to wait for the host. That the effect is applied here is decision D10 of
spec/92. -/
def Obligations.StatusInAppliesTheEffect : Prop :=
  ∀ s : State, s.disp.dphase = .stIn → s.ep0.txReady = true → s.epSel = 0 →
    let t : State := { s with ep0 := committed s.ep0, disp := { s.disp with dphase := .idle } }
    (s.disp.post = .none → exec .pStIn s = .next t) ∧
    (∀ d, s.disp.post = .idle d → exec .pStIn s = .next { t with ctl := { s.ctl with idleDuration := d } }) ∧
    (∀ b, s.disp.post = .proto b → exec .pStIn s = .next { t with ctl := { s.ctl with protocolMode := b } }) ∧
    (∀ a, s.disp.post = .addr a →
      exec .pStIn s = .next { t with disp := { s.disp with dphase := .addrAck } })

/-- spec/42 R213, R214: SET_CONFIGURATION's status stage in every state, for both answers of the endpoint controller.
The rows the source does not fix are decision D14 of spec/92. -/
def Obligations.ConfigurationInEveryState : Prop :=
  ∀ (s : State) (v : Byte), s.disp.dphase = .stIn → s.ep0.txReady = true → s.epSel = 0 → s.disp.post = .cfg v →
    s.par.kbdEp ≠ 0 →
    let t : State := { s with
      ep0 := committed s.ep0, disp := { s.disp with dphase := .idle }, ctl := { s.ctl with cfgValue := v } }
    (v = 1 → s.ctl.enumState = .addressed → cfgAnswer s = true →
      exec .pStIn s = .next { afterConfigure t with
        kbd := { cfg := true, rwal := true, fifo := [], inPkt := none }
        ctl := { s.ctl with
          cfgValue := v, enumState := .configured, idleDuration := 500, idleRemaining := 0 } }) ∧
    (v = 1 → s.ctl.enumState = .addressed → cfgAnswer s = false →
      exec .pStIn s = .next { afterConfigure t with kbd := { s.kbd with cfg := false, rwal := false } }) ∧
    (v = 1 → s.ctl.enumState ≠ .addressed → exec .pStIn s = .next t) ∧
    (v = 0 → s.ctl.enumState = .configured →
      exec .pStIn s = .next { t with ctl := { s.ctl with cfgValue := v, enumState := .addressed } }) ∧
    (v = 0 → s.ctl.enumState ≠ .configured → exec .pStIn s = .next t)

/-- spec/42 R204: the address and its enable bit are written together, and the state becomes Addressed, only once the
endpoint is ready to send again. The wait is decision D13 of spec/92, the transition from any state D15; the
refusal of a step that still waits is log entry 10 (DEDUCED). -/
def Obligations.AddressIsWrittenAfterTheStatusStage : Prop :=
  ∀ (s : State) (a : UsbAddr), s.disp.dphase = .addrAck → s.disp.post = .addr a → s.epSel = 0 →
    (s.ep0.txReady = true → exec .pAddrAck s = .next { s with
      uaddr := a
      adden := true
      hostTrace := s.hostTrace ++ [.addr a]
      ctl := { s.ctl with enumState := .addressed }
      disp := { s.disp with dphase := .idle } }) ∧
    (s.ep0.txReady = false → exec .pAddrAck s = .refused .notEnabled)

/-- spec/44 R263: an OUT packet of SET_REPORT is discarded; a short one, or the last byte owed, ends the data stage; a
pending SETUP abandons the request. The data stage is decision D18 of spec/92. -/
def Obligations.ReportDataIsDrained : Prop :=
  ∀ s : State, s.disp.dphase = .outDrain → s.epSel = 0 →
    let n := s.ep0.fifo.length
    let rem := s.disp.xfRem.toNat - min n s.disp.xfRem.toNat
    let t : State := { s with
      ep0 := { s.ep0 with rxPend := false, fifo := [] }
      disp := { s.disp with xfRem := BitVec.ofNat 16 rem } }
    (s.ep0.setupPend = true → exec .pOutDrain s = .next { s with disp := { s.disp with dphase := .idle } }) ∧
    (s.ep0.setupPend = false → s.ep0.rxPend = true → (rem = 0 ∨ n < 64) →
      exec .pOutDrain s = .next { t with disp := { t.disp with post := .none, dphase := .stIn } }) ∧
    (s.ep0.setupPend = false → s.ep0.rxPend = true → rem ≠ 0 → 64 ≤ n → exec .pOutDrain s = .next t)

/-- spec/10 R23, spec/70 R385: a phase whose flag has not come has no step, and a phase's step is taken at no other
phase. That a status wait tests one flag is decision D37 of spec/92, that a step not enabled is a refusal log
entry 10 (DEDUCED). -/
def Obligations.WaitsHold : Prop :=
  ∀ s : State,
    (s.disp.dphase ≠ .fxTx ∨ s.ep0.txReady = false → exec .pFxTx s = .refused .notEnabled) ∧
    (s.disp.dphase ≠ .stIn ∨ s.ep0.txReady = false → exec .pStIn s = .refused .notEnabled) ∧
    (s.disp.dphase ≠ .addrAck ∨ s.ep0.txReady = false → exec .pAddrAck s = .refused .notEnabled) ∧
    (s.disp.dphase ≠ .stOut ∨ s.ep0.rxPend = false → exec .pStOut s = .refused .notEnabled) ∧
    (s.disp.dphase ≠ .outDrain ∨ (s.ep0.rxPend = false ∧ s.ep0.setupPend = false) →
      exec .pOutDrain s = .refused .notEnabled) ∧
    (s.disp.dphase ≠ .inLoop ∨ (s.ep0.txReady = false ∧ s.ep0.rxPend = false ∧ s.ep0.setupPend = false) →
      exec .pInLoop s = .refused .notEnabled)

/-! ## Reset, events and handlers -/

/-- spec/70 R370 with the table of spec/10 section 11: what power-on reset leaves, from any state. The elements the
table calls unspecified are not named; the switches, the trace and the parameters are no part of it. The values
are decision D26 of spec/92; that the switches and the trace are kept is log entry 13. -/
def Obligations.PowerOnReset : Prop :=
  ∀ s : State, ∃ t, exec .por s = .next t ∧
    t.disp.dphase = .idle ∧
    t.scan = { mphase := .scan, scanRow := 0, scanAcc := false, scanChanged := false,
               matrix := List.replicate s.par.rows (List.replicate s.par.cols false),
               dbCnt := List.replicate s.par.rows (List.replicate s.par.cols 0) } ∧
    t.ctl = { enumState := .default, cfgValue := 0, idleDuration := 500, idleRemaining := 0,
              protocolMode := true } ∧
    t.ev = { eorPend := false, sofPend := false, commPend := false } ∧
    t.krs = { mod := 0, ovf := false, k0 := 0, k1 := 0, k2 := 0, k3 := 0, k4 := 0, k5 := 0 } ∧
    t.uaddr = 0 ∧ t.adden = false ∧
    t.ep0 = { cfg := false, setupPend := false, txReady := false, rxPend := false, stallReq := false, fifo := [],
              inPkt := none } ∧
    t.kbd = { cfg := false, rwal := false, fifo := [], inPkt := none } ∧
    t.pins.rowDir = List.replicate s.par.rows false ∧ t.pins.rowLvl.length = s.par.rows ∧
    t.sw = s.sw ∧ t.hostTrace = s.hostTrace ∧ t.par = s.par

/-- spec/60 R341: the End-Of-Reset handler, for both answers of the endpoint controller. That nothing else is written
is decision D16 of spec/92. -/
def Obligations.EndOfResetHandler : Prop :=
  ∀ s : State, EorEnabled s →
    exec .eor s = .next { afterConfigure s with
      ev := { s.ev with eorPend := false }
      ctl := { s.ctl with enumState := .default }
      ep0 := if cfgAnswer s = true then
          { cfg := true, setupPend := false, txReady := true, rxPend := false, stallReq := false, fifo := [],
            inPkt := none }
        else { s.ep0 with cfg := false, txReady := false } }

/-- spec/45 R281: the Start-Of-Frame handler counts down with a floor at 0. The floor is decision D21 of spec/92. -/
def Obligations.StartOfFrameHandler : Prop :=
  ∀ s : State, SofEnabled s →
    exec .sof s = .next { s with
      ev := { s.ev with sofPend := false }
      ctl := { s.ctl with idleRemaining := BitVec.ofNat 16 (s.ctl.idleRemaining.toNat - 1) } }

/-- spec/20 R81 and spec/60 R343: while a dispatch is in progress no handler and no main-loop step is enabled; and the
handlers are taken in the order EOR, SOF, COMM. Exclusivity and the priority are decision D2 of spec/92, that a
step not enabled is a refusal log entry 10 (DEDUCED). -/
def Obligations.ExclusivityAndPriority : Prop :=
  ∀ s : State,
    (s.disp.dphase ≠ .idle → ∀ i ∈ [Instr.eor, .sof, .comm, .scanRow, .getState, .reportSend],
      exec i s = .refused .notEnabled) ∧
    (s.ev.eorPend = true → exec .sof s = .refused .notEnabled ∧ exec .comm s = .refused .notEnabled) ∧
    (s.ev.sofPend = true → exec .comm s = .refused .notEnabled)

/-! ## The main loop -/

/-- spec/46 R304, R305: a row's visit filters each of its cells, leaves every other cell as it was, leaves all rows
inputs, and touches nothing but the scanner and that row's level. The filter is decision D25 of spec/92. -/
def Obligations.RowVisitFiltersItsCells : Prop :=
  ∀ s : State, MainEnabled .scan s → MatrixReady s →
    let r := s.scan.scanRow
    ∃ t, exec .scanRow s = .next t ∧
      t = { s with scan := t.scan, pins := { s.pins with rowLvl := s.pins.rowLvl.set r s.par.activeLevel } } ∧
      (∀ c, c < s.par.cols →
        (gridGet t.scan.matrix false r c, gridGet t.scan.dbCnt 0 r c) =
          filtered s.par.debounceScans (gridGet s.sw false r c) (gridGet s.scan.matrix false r c)
            (gridGet s.scan.dbCnt 0 r c)) ∧
      (∀ r' c, r' ≠ r → gridGet t.scan.matrix false r' c = gridGet s.scan.matrix false r' c ∧
        gridGet t.scan.dbCnt 0 r' c = gridGet s.scan.dbCnt 0 r' c)

/-- spec/46 R304, R306: the next row, or at the last row the end of the scan with `scan_changed` telling whether any
cell flipped in it. One step for each row is decision D23 of spec/92. -/
def Obligations.ScanPosition : Prop :=
  ∀ s : State, MainEnabled .scan s → MatrixReady s →
    let r := s.scan.scanRow
    ∃ t, exec .scanRow s = .next t ∧
      ∃ flipped : Bool,
        (flipped = true ↔ ∃ c, c < s.par.cols ∧
          (filtered s.par.debounceScans (gridGet s.sw false r c) (gridGet s.scan.matrix false r c)
            (gridGet s.scan.dbCnt 0 r c)).1 ≠ gridGet s.scan.matrix false r c) ∧
        (r + 1 < s.par.rows →
          t.scan.mphase = .scan ∧ t.scan.scanRow = r + 1 ∧ t.scan.scanAcc = (s.scan.scanAcc || flipped) ∧
          t.scan.scanChanged = s.scan.scanChanged) ∧
        (r + 1 = s.par.rows →
          t.scan.mphase = .state ∧ t.scan.scanRow = 0 ∧ t.scan.scanAcc = false ∧
          t.scan.scanChanged = (s.scan.scanAcc || flipped))

/-- spec/46 R310, R311: GET_STATE writes all of `krs` at once, from the keycodes of the cells that are down, row-major
and ascending: the bits of the pressed modifiers, the first six other keycodes, and overflow exactly when there
are more. The scan order is decision D24 of spec/92, the keycode 0 D34. -/
def Obligations.KeyStateIsRebuilt : Prop :=
  ∀ s : State, MainEnabled .state s →
    let pressed := (List.range s.par.rows).flatMap fun r =>
      (List.range s.par.cols).filterMap fun c =>
        if gridGet s.scan.matrix false r c = true then some (gridGet s.par.layout 0 r c) else none
    let others := pressed.filter fun k => !isModifier k
    ∃ k : KeyReport,
      exec .getState s = .next { s with krs := k, scan := { s.scan with mphase := .send } } ∧
      (∀ b, b < 8 → (k.mod.getLsbD b = true ↔ BitVec.ofNat 8 (0xE0 + b) ∈ pressed)) ∧
      [k.k0, k.k1, k.k2, k.k3, k.k4, k.k5] = (others.take 6) ++ List.replicate (6 - others.length) 0 ∧
      (k.ovf = true ↔ 6 < others.length)

/-- spec/45 R285, R286: Configured, the countdown at 0 and the endpoint ready, the 8 bytes of the report are committed
and the countdown reloaded. The reserved byte is decision D22 of spec/92. -/
def Obligations.ReportIsSent : Prop :=
  ∀ s : State, MainEnabled .send s → s.ctl.enumState = .configured → s.ctl.idleRemaining = 0 →
    s.kbd.cfg = true → s.kbd.rwal = true → s.kbd.fifo = [] → s.par.kbdEp ≠ 0 →
    exec .reportSend s = .next { s with
      epSel := s.par.kbdEp
      kbd := { s.kbd with
        inPkt := some [s.krs.mod, 0x00, s.krs.k0, s.krs.k1, s.krs.k2, s.krs.k3, s.krs.k4, s.krs.k5]
        rwal := false }
      ctl := { s.ctl with idleRemaining := s.ctl.idleDuration }
      scan := { s.scan with mphase := .scan, scanRow := 0, scanAcc := false } }

/-- spec/45 R285, R287: otherwise nothing is sent; only a due send that finds the endpoint busy leaves it selected.
What follows a busy endpoint is decision D22 of spec/92. -/
def Obligations.ReportIsHeldBack : Prop :=
  ∀ s : State, MainEnabled .send s →
    let t : State := { s with scan := { s.scan with mphase := .scan, scanRow := 0, scanAcc := false } }
    (s.ctl.enumState ≠ .configured ∨ s.ctl.idleRemaining ≠ 0 → exec .reportSend s = .next t) ∧
    (s.ctl.enumState = .configured → s.ctl.idleRemaining = 0 → s.kbd.cfg = false ∨ s.kbd.rwal = false →
      exec .reportSend s = .next { t with epSel := s.par.kbdEp })

/-! ## The environment's moves -/

/-- spec/40 R160: a SETUP packet arrives, and is not possible while endpoint 0 is not configured. The moves are the
spec's own decision D5 (spec/40 section 3), the refusal is log entry 10 (DEDUCED). -/
def Obligations.SetupArrives : Prop :=
  ∀ (s : State) (b : List Byte), b.length = 8 →
    (s.ep0.cfg = true → exec (.hostSetup b) s = .next { s with
      ep0 := { s.ep0 with
        fifo := b, setupPend := true, stallReq := false, inPkt := none, txReady := true, rxPend := false }
      ev := { s.ev with commPend := true }
      hostTrace := s.hostTrace ++ [.setup b] }) ∧
    (s.ep0.cfg = false → exec (.hostSetup b) s = .refused .moveImpossible)

/-- spec/40 R161, R166: the host collects a committed packet, of endpoint 0 or of the keyboard endpoint, exactly when
the move's precondition holds. The moves are the spec's own decision D5 (spec/40 section 3), the refusals are log
entry 10 (DEDUCED). -/
def Obligations.PacketsAreCollected : Prop :=
  ∀ (s : State) (p : List Byte),
    (s.ep0.cfg = true → s.ep0.stallReq = false → s.ep0.inPkt = some p →
      exec .hostIn0 s = .next { s with
        ep0 := { s.ep0 with inPkt := none, txReady := true }, hostTrace := s.hostTrace ++ [.in0 p] }) ∧
    (s.kbd.cfg = true → s.kbd.inPkt = some p →
      exec .hostInk s = .next { s with
        kbd := { s.kbd with inPkt := none, rwal := true }, hostTrace := s.hostTrace ++ [.inK p] }) ∧
    (s.ep0.cfg = false ∨ s.ep0.stallReq = true ∨ s.ep0.inPkt = none → exec .hostIn0 s = .refused .moveImpossible) ∧
    (s.kbd.cfg = false ∨ s.kbd.inPkt = none → exec .hostInk s = .refused .moveImpossible)

/-- spec/40 R162: an OUT packet of 0 to 64 bytes arrives, only while endpoint 0 is configured, no SETUP or OUT is
pending and there is no stall. The moves are the spec's own decision D5 (spec/40 section 3), the refusal is log
entry 10 (DEDUCED). -/
def Obligations.OutPacketArrives : Prop :=
  ∀ (s : State) (p : List Byte), p.length ≤ 64 →
    (s.ep0.cfg = true → s.ep0.rxPend = false → s.ep0.setupPend = false → s.ep0.stallReq = false →
      exec (.hostOut p) s = .next { s with
        ep0 := { s.ep0 with fifo := p, rxPend := true }, hostTrace := s.hostTrace ++ [.out0 p] }) ∧
    (s.ep0.cfg = false ∨ s.ep0.rxPend = true ∨ s.ep0.setupPend = true ∨ s.ep0.stallReq = true →
      exec (.hostOut p) s = .refused .moveImpossible)

/-- spec/40 R163: a bus reset clears the transport state and signals EOR; it changes no block state. The moves are the
spec's own decision D5 (spec/40 section 3); the RESET entry of the trace is log entry 14 (DEDUCED). -/
def Obligations.BusResetClearsTheTransport : Prop :=
  ∀ s : State, exec .busReset s = .next { s with
    uaddr := 0
    adden := false
    ep0 := { cfg := false, setupPend := false, txReady := false, rxPend := false, stallReq := false, fifo := [],
             inPkt := none }
    kbd := { cfg := false, rwal := false, fifo := [], inPkt := none }
    ev := { s.ev with eorPend := true }
    hostTrace := s.hostTrace ++ [.reset] }

/-- spec/40 R164, R165, R167, R168: a frame tick, a spurious event, a switch, a token to a stalled endpoint. The moves
are the spec's own decision D5 (spec/40 section 3), the refusal is log entry 10 (DEDUCED). -/
def Obligations.SignalsAndSwitches : Prop :=
  ∀ (s : State) (r c : Nat) (v : Bool),
    exec .sofTick s = .next { s with ev := { s.ev with sofPend := true } } ∧
    exec .spuriousComm s = .next { s with ev := { s.ev with commPend := true } } ∧
    (s.ep0.cfg = true → s.ep0.stallReq = true →
      exec .hostStalled s = .next { s with hostTrace := s.hostTrace ++ [.stall0] }) ∧
    (s.ep0.cfg = false ∨ s.ep0.stallReq = false → exec .hostStalled s = .refused .moveImpossible) ∧
    (r < s.par.rows → c < s.par.cols → Grid.Shaped s.sw s.par.rows s.par.cols →
      ∃ g, exec (.keys r c v) s = .next { s with sw := g } ∧
        ∀ r' c', gridGet g false r' c' = if r' = r ∧ c' = c then v else gridGet s.sw false r' c')

/-! ## The primitives -/

/-- spec/40 R143 to R145, R155: the flag queries return their flag and write nothing. The primitives' contract is
decision D4 of spec/92; `answer` is the model's own field for the value returned (log entry 6). -/
def Obligations.FlagQueries : Prop :=
  ∀ s : State,
    (s.epSel = 0 →
      exec .isSetupPending s = .next { s with answer := .bit s.ep0.setupPend } ∧
      exec .isSendReady s = .next { s with answer := .bit s.ep0.txReady } ∧
      exec .isReceivePending s = .next { s with answer := .bit s.ep0.rxPend }) ∧
    (s.epSel = s.par.kbdEp → exec .kbdReady s = .next { s with answer := .bit (s.kbd.cfg && s.kbd.rwal) })

/-- spec/40 R148 to R152: clearing a flag, the commit, the stall, and the status stage in both directions, which waits
while its flag is 0. The primitives' contract, the commit included, is decision D4 of spec/92, what ends the
status wait decision D37; that a wait is the refusal notEnabled is log entry 10 (DEDUCED). -/
def Obligations.FlagOperations : Prop :=
  ∀ s : State, s.epSel = 0 →
    let cleared : State := { s with ep0 := { s.ep0 with rxPend := false, fifo := [] } }
    let sent : State := { s with ep0 := { s.ep0 with inPkt := some s.ep0.fifo, fifo := [], txReady := false } }
    exec .clearSetupFlag s = .next { s with ep0 := { s.ep0 with setupPend := false, fifo := [] } } ∧
    exec .clearSendFlag s = .next sent ∧
    exec .clearReceiveFlag s = .next cleared ∧
    exec .stall s = .next { s with ep0 := { s.ep0 with stallReq := true } } ∧
    (s.ep0.rxPend = true → exec (.syncStatusStage .d2h) s = .next cleared) ∧
    (s.ep0.txReady = true → exec (.syncStatusStage .h2d) s = .next sent) ∧
    (s.ep0.rxPend = false → exec (.syncStatusStage .d2h) s = .refused .notEnabled) ∧
    (s.ep0.txReady = false → exec (.syncStatusStage .h2d) s = .refused .notEnabled)

/-- spec/40 R146, R147, R336: a FIFO gives its oldest byte and takes a byte at its end; a full one is a fault (log
entry 19). The byte of an empty FIFO is a free value (log entry 5). The primitives' contract is decision D4 of
spec/92, the empty and the full FIFO decision D30; `answer` is log entry 6. -/
def Obligations.FifoAccesses : Prop :=
  ∀ (s : State) (b : Byte) (rest : List Byte),
    (s.epSel = 0 → s.ep0.fifo = b :: rest →
      exec .fifoRead s = .next { s with ep0 := { s.ep0 with fifo := rest }, answer := .byte b }) ∧
    (s.epSel = s.par.kbdEp → s.par.kbdEp ≠ 0 → s.kbd.fifo = b :: rest →
      exec .fifoRead s = .next { s with kbd := { s.kbd with fifo := rest }, answer := .byte b }) ∧
    ((s.epSel = 0 ∧ s.ep0.fifo = []) ∨ (s.epSel = s.par.kbdEp ∧ s.par.kbdEp ≠ 0 ∧ s.kbd.fifo = []) →
      ∃ d, exec .fifoRead s = .next { s with draws := s.draws + 1, answer := .byte d }) ∧
    (s.epSel = 0 → s.ep0.fifo.length < 64 →
      exec (.fifoWrite b) s = .next { s with ep0 := { s.ep0 with fifo := s.ep0.fifo ++ [b] } }) ∧
    (s.epSel = 0 → 64 ≤ s.ep0.fifo.length → exec (.fifoWrite b) s = .fault .fifoOverrun) ∧
    (s.epSel = s.par.kbdEp → s.par.kbdEp ≠ 0 → s.kbd.fifo.length < 8 →
      exec (.fifoWrite b) s = .next { s with kbd := { s.kbd with fifo := s.kbd.fifo ++ [b] } }) ∧
    (s.epSel = s.par.kbdEp → s.par.kbdEp ≠ 0 → 8 ≤ s.kbd.fifo.length →
      exec (.fifoWrite b) s = .fault .fifoOverrun)

/-- spec/40 R142, R153, R154, R156: selecting, writing the address, configuring an endpoint, re-arming. The
primitives' contract is decision D4 of spec/92; that any 4-bit number can be selected is log entry 15 (DEDUCED),
the draws of the answer and of the selection after it are log entry 5, `answer` is log entry 6. -/
def Obligations.EndpointOperations : Prop :=
  ∀ (s : State) (n : EpNum) (a : UsbAddr), s.par.kbdEp ≠ 0 →
    exec (.selectEndpoint n) s = .next { s with epSel := n } ∧
    exec (.writeAddress a) s = .next { s with uaddr := a, adden := true, hostTrace := s.hostTrace ++ [.addr a] } ∧
    exec (.configureEndpoint 0) s = .next { afterConfigure s with
      answer := .bit (cfgAnswer s)
      ep0 := if cfgAnswer s = true then
          { cfg := true, setupPend := false, txReady := true, rxPend := false, stallReq := false, fifo := [],
            inPkt := none }
        else { s.ep0 with cfg := false, txReady := false } } ∧
    exec (.configureEndpoint s.par.kbdEp) s = .next { afterConfigure s with
      answer := .bit (cfgAnswer s)
      kbd := if cfgAnswer s = true then { cfg := true, rwal := true, fifo := [], inPkt := none }
        else { s.kbd with cfg := false, rwal := false } } ∧
    (s.epSel = s.par.kbdEp → exec .kbdRearm s = .next { s with
      kbd := { s.kbd with inPkt := some s.kbd.fifo, fifo := [], rwal := false } })

/-- spec/40 R157: a flag primitive called with another endpoint selected is refused. -/
def Obligations.WrongSelectionIsRefused : Prop :=
  ∀ s : State,
    (s.epSel ≠ 0 → ∀ i ∈ [Instr.isSetupPending, .isSendReady, .isReceivePending, .clearSetupFlag, .clearSendFlag,
      .clearReceiveFlag, .stall], exec i s = .refused .wrongEndpoint) ∧
    (s.epSel ≠ s.par.kbdEp → ∀ i ∈ [Instr.kbdReady, .kbdRearm], exec i s = .refused .wrongEndpoint)

/-- spec/46 R301 and spec/10 R54: the pin primitives; a column reads the active level exactly when some row driven at
that level reaches it through a conducting switch. What a column reads is decision D24 of spec/92; `answer` is log
entry 6. -/
def Obligations.PinPrimitives : Prop :=
  ∀ (s : State) (r c : Nat) (v : Bool),
    (r < s.par.rows →
      exec (.setDirectionSetLevelReadLevel (.setDirection r v)) s =
        .next { s with pins := { s.pins with rowDir := s.pins.rowDir.set r v } } ∧
      exec (.setDirectionSetLevelReadLevel (.setLevel r v)) s =
        .next { s with pins := { s.pins with rowLvl := s.pins.rowLvl.set r v } }) ∧
    (c < s.par.cols → s.pins.rowLvl.length = s.par.rows →
      ∃ level, exec (.setDirectionSetLevelReadLevel (.readLevel c)) s = .next { s with answer := .bit level } ∧
        (level = s.par.activeLevel ↔ ∃ q, q < s.par.rows ∧ s.pins.rowDir[q]? = some true ∧
          s.pins.rowLvl[q]? = some s.par.activeLevel ∧ gridGet s.sw false q c = true))

/-! ## The step -/

/-- spec/60 R344: the outcome of the placed move, next state or fault, is the step's; a turn that is not enabled, not
possible or out of range, or is a request's or a primitive's, passes and changes only the model's own schedule;
any other refusal stays one. A sanity statement about the model's own scheduling (log entry 1). -/
def Obligations.StepTakesThePlacedMove : Prop :=
  ∀ (s : State) (i : Instr) (rest : List Instr), s.sched = i :: rest →
    let s' : State := { s with sched := rest, turn := s.turn + 1 }
    (∀ t, i.isAgentStep = true → exec i s' = .next t → step s = .next t) ∧
    (∀ f, i.isAgentStep = true → exec i s' = .fault f → step s = .fault f) ∧
    (∀ r ∈ [Refusal.notEnabled, .moveImpossible, .badOperand], i.isAgentStep = true → exec i s' = .refused r →
      step s = .next s') ∧
    (∀ r ∉ [Refusal.notEnabled, .moveImpossible, .badOperand], i.isAgentStep = true → exec i s' = .refused r →
      step s = .refused r) ∧
    (i.isAgentStep = false → step s = .next s')

/-- spec/41 R180 to R184: the step at a pending packet is the request it decodes to, run on the state in which the
packet is latched and read. -/
def Obligations.StepRunsTheFetchedRequest : Prop :=
  ∀ (s : State) (nbits w : Nat) (i : Instr), decodeTableWord nbits w = some i →
    ∃ rq, decodeRequest rq = i ∧
      step (s.withFetchWord nbits w) = exec i { s with
        ep0 := { s.ep0 with setupPend := true, fifo := [] }
        ev := { eorPend := false, sofPend := false, commPend := false }
        disp := { s.disp with dphase := .idle, rq := rq }
        epSel := 0
        turn := s.turn + 1 }

/-! ## Whole-machine rules -/

/-- The reset state meets the invariant. (The values of the elements the spec leaves unspecified are the model's, log
entry 2, and the parameters at reset are the model's, log entry 4.) -/
def Obligations.ResetMeetsTheInvariant : Prop := Inv State.reset

/-- Every step keeps the invariant: R24, R27 to R29, R32, R33, R44, R47, R48, R50, R52, R302, R336. -/
def Obligations.StepKeepsTheInvariant : Prop := ∀ s t : State, Inv s → step s = .next t → Inv t

/-- spec/60 R336: from a state of the invariant the machine stops in one case only, the fixed reply beside an unread
payload of 63 or 64 bytes; with the host's duty H7 it does not stop. That a turn without an enabled step passes is
the model's choice (log entry 1). -/
def Obligations.OnlyOverrunStops : Prop :=
  ∀ s : State, Inv s →
    ((∃ t, step s = .next t) ∨
      (step s = .fault .fifoOverrun ∧ s.disp.dphase = .fxTx ∧ s.ep0.rxPend = true ∧ 63 ≤ s.ep0.fifo.length)) ∧
    (DutyH7 s → ∃ t, step s = .next t)

/-- spec/41 R189: every transition of `dphase` is one of the phase graph; a dispatch begins only by the COMM entry
step or by a request, which that step runs; and a dispatch in progress moves only by the step of its own phase (or
POR). The phases are decision D1 of spec/92. -/
def Obligations.PhaseGraph : Prop :=
  ∀ (i : Instr) (s t : State), i ≠ .por → exec i s = .next t →
    phaseEdge s.disp.dphase t.disp.dphase = true ∧
    (s.disp.dphase = .idle → t.disp.dphase ≠ .idle → i = .comm ∨ i.isRequest = true) ∧
    (s.disp.dphase ≠ .idle → t.disp.dphase ≠ s.disp.dphase →
      (s.disp.dphase, i) ∈ [(DPhase.fxTx, Instr.pFxTx), (.inLoop, .pInLoop), (.stOut, .pStOut), (.stIn, .pStIn),
        (.addrAck, .pAddrAck), (.outDrain, .pOutDrain)])

/-- spec/42 R218: every transition of `enum_state`: POR and the EOR handler lead to Default, the P_ADDR_ACK step to
Addressed, SET_CONFIGURATION(1) from Addressed with a configured endpoint to Configured, SET_CONFIGURATION(0) from
Configured to Addressed; anything else leaves it. That P_ADDR_ACK leads to Addressed from any state is decision
D15 of spec/92 (spec/90 C3), the transitions of SET_CONFIGURATION outside the source's two decision D14, EOR
whatever its answer D16. -/
def Obligations.EnumerationTransitions : Prop :=
  ∀ (i : Instr) (s t : State), exec i s = .next t →
    let before := s.ctl.enumState
    let up : Prop := i = .pStIn ∧ before = .addressed ∧ s.disp.post = .cfg 1 ∧ cfgAnswer s = true
    let down : Prop := i = .pStIn ∧ before = .configured ∧ s.disp.post = .cfg 0
    (i = .por ∨ i = .eor → t.ctl.enumState = .default) ∧
    (i = .pAddrAck ∨ down → t.ctl.enumState = .addressed) ∧
    (up → t.ctl.enumState = .configured) ∧
    (i ≠ .por → i ≠ .eor → i ≠ .pAddrAck → ¬up → ¬down → t.ctl.enumState = before)

/-- spec/45 R284: every write of the two idle registers. -/
def Obligations.IdleRegisterWrites : Prop :=
  ∀ (i : Instr) (s t : State), exec i s = .next t →
    (t.ctl.idleDuration ≠ s.ctl.idleDuration →
      (i = .por ∧ t.ctl.idleDuration = 500) ∨
      (i = .pStIn ∧ s.disp.post = .idle t.ctl.idleDuration) ∨
      (i = .pStIn ∧ s.disp.post = .cfg 1 ∧ s.ctl.enumState = .addressed ∧ t.ctl.enumState = .configured ∧
        t.ctl.idleDuration = 500)) ∧
    (t.ctl.idleRemaining ≠ s.ctl.idleRemaining →
      (i = .por ∧ t.ctl.idleRemaining = 0) ∨
      (i = .sof ∧ t.ctl.idleRemaining.toNat + 1 = s.ctl.idleRemaining.toNat) ∨
      (i = .pStIn ∧ s.disp.post = .cfg 1 ∧ s.ctl.enumState = .addressed ∧ t.ctl.enumState = .configured ∧
        t.ctl.idleRemaining = 0) ∨
      (i = .reportSend ∧ s.ctl.enumState = .configured ∧ s.ctl.idleRemaining = 0 ∧
        t.ctl.idleRemaining = s.ctl.idleDuration))

/-- spec/60 R350, spec/70 R381, spec/20 R87, spec/10 R54, R56: who writes what. The address changes only by
P_ADDR_ACK, a bus reset, POR and the primitive that P_ADDR_ACK calls; the matrix and `krs` only by their main-loop
steps and POR; the latch only by the COMM entry step and POR; the switches only by KEYS; the parameters never.
That POR leaves the switches alone is log entry 13 (DEDUCED, unsafe); that the parameters are a constant part of
State is log entry 3 (DESIGN CHOICE). -/
def Obligations.WhoWritesWhat : Prop :=
  ∀ (i : Instr) (s t : State), exec i s = .next t →
    ((t.uaddr, t.adden) ≠ (s.uaddr, s.adden) →
      i = .pAddrAck ∨ i = .busReset ∨ i = .por ∨ ∃ a, i = .writeAddress a) ∧
    (t.scan.matrix ≠ s.scan.matrix ∨ t.scan.dbCnt ≠ s.scan.dbCnt → i = .scanRow ∨ i = .por) ∧
    (t.krs ≠ s.krs → i = .getState ∨ i = .por) ∧
    (t.disp.rq ≠ s.disp.rq → i = .comm ∨ i = .por) ∧
    (t.ctl.cfgValue ≠ s.ctl.cfgValue → i = .pStIn ∨ i = .por) ∧
    (t.ctl.protocolMode ≠ s.ctl.protocolMode → i = .pStIn ∨ i = .por) ∧
    (t.sw ≠ s.sw → ∃ r c v, i = .keys r c v) ∧
    t.par = s.par

/-- spec/43 R248, which the spec marks as derived: a chunked transfer that is not cut short delivers exactly the bytes
of its source, in packets of 64 and a shorter or zero-length last one. The transfer loop is decision D12 of
spec/92. -/
def Obligations.TransferDeliversTheSource : Prop :=
  ∀ s : State, s.disp.dphase = .inLoop → s.epSel = 0 → s.ep0.cfg = true → s.ep0.setupPend = false →
    s.ep0.rxPend = false → s.ep0.stallReq = false → s.ep0.txReady = true → s.ep0.fifo = [] →
    (s.disp.xfRem ≠ 0 ∨ s.disp.xfZlp = true) →
    (s.disp.xfZlp = true → s.disp.xfRem.toNat % 64 = 0) →
    s.disp.xfPtr.toNat + s.disp.xfRem.toNat ≤ (sourceBytes s s.disp.xfSrc).length →
    (sourceBytes s s.disp.xfSrc).length ≤ 65535 →
    let n := s.disp.xfRem.toNat / 64 + 2
    let bytes := ((sourceBytes s s.disp.xfSrc).drop s.disp.xfPtr.toNat).take s.disp.xfRem.toNat
    ∃ t, collectTransfer n s = .next t ∧ t.disp.dphase = .stOut ∧
      t.hostTrace = s.hostTrace ++ (packets n bytes s.disp.xfZlp).map .in0 ∧
      (packets n bytes s.disp.xfZlp).flatten = bytes

/-- spec/70 R385, R386: a bus reset during a dispatch, and a SETUP during the wait for the status OUT, are never left
but by POR. The hangs follow from decisions D35 and D37 of spec/92. -/
def Obligations.HangsAreNeverLeft : Prop :=
  ∀ (s t : State), nextMove s ≠ .por → step s = .next t →
    (StuckAfterReset s → StuckAfterReset t ∧ t.disp.dphase = s.disp.dphase) ∧
    (StuckInStatusOut s → StuckInStatusOut t)
end

