-- ==== Sys2Proof/Laws/State.lean ====
section
/-! SUPPORT. The fields of State under the named updates: one lemma per field and update. -/

namespace Sys2Proof.Machine

/-! record -/

@[simp] theorem record_ctl (e : HostEvent) (s : State) : (record e s).ctl = s.ctl := rfl
@[simp] theorem record_ev (e : HostEvent) (s : State) : (record e s).ev = s.ev := rfl
@[simp] theorem record_disp (e : HostEvent) (s : State) : (record e s).disp = s.disp := rfl
@[simp] theorem record_scan (e : HostEvent) (s : State) : (record e s).scan = s.scan := rfl
@[simp] theorem record_krs (e : HostEvent) (s : State) : (record e s).krs = s.krs := rfl
@[simp] theorem record_epSel (e : HostEvent) (s : State) : (record e s).epSel = s.epSel := rfl
@[simp] theorem record_uaddr (e : HostEvent) (s : State) : (record e s).uaddr = s.uaddr := rfl
@[simp] theorem record_adden (e : HostEvent) (s : State) : (record e s).adden = s.adden := rfl
@[simp] theorem record_ep0 (e : HostEvent) (s : State) : (record e s).ep0 = s.ep0 := rfl
@[simp] theorem record_kbd (e : HostEvent) (s : State) : (record e s).kbd = s.kbd := rfl
@[simp] theorem record_pins (e : HostEvent) (s : State) : (record e s).pins = s.pins := rfl
@[simp] theorem record_sw (e : HostEvent) (s : State) : (record e s).sw = s.sw := rfl
@[simp] theorem record_hostTrace (e : HostEvent) (s : State) : (record e s).hostTrace = s.hostTrace ++ [e] := rfl
@[simp] theorem record_par (e : HostEvent) (s : State) : (record e s).par = s.par := rfl
@[simp] theorem record_sched (e : HostEvent) (s : State) : (record e s).sched = s.sched := rfl
@[simp] theorem record_turn (e : HostEvent) (s : State) : (record e s).turn = s.turn := rfl
@[simp] theorem record_cfgAnswers (e : HostEvent) (s : State) : (record e s).cfgAnswers = s.cfgAnswers := rfl
@[simp] theorem record_draws (e : HostEvent) (s : State) : (record e s).draws = s.draws := rfl
@[simp] theorem record_answer (e : HostEvent) (s : State) : (record e s).answer = s.answer := rfl

/-! selectEndpoint -/

@[simp] theorem selectEndpoint_ctl (n : EpNum) (s : State) : (selectEndpoint n s).ctl = s.ctl := rfl
@[simp] theorem selectEndpoint_ev (n : EpNum) (s : State) : (selectEndpoint n s).ev = s.ev := rfl
@[simp] theorem selectEndpoint_disp (n : EpNum) (s : State) : (selectEndpoint n s).disp = s.disp := rfl
@[simp] theorem selectEndpoint_scan (n : EpNum) (s : State) : (selectEndpoint n s).scan = s.scan := rfl
@[simp] theorem selectEndpoint_krs (n : EpNum) (s : State) : (selectEndpoint n s).krs = s.krs := rfl
@[simp] theorem selectEndpoint_epSel (n : EpNum) (s : State) : (selectEndpoint n s).epSel = n := rfl
@[simp] theorem selectEndpoint_uaddr (n : EpNum) (s : State) : (selectEndpoint n s).uaddr = s.uaddr := rfl
@[simp] theorem selectEndpoint_adden (n : EpNum) (s : State) : (selectEndpoint n s).adden = s.adden := rfl
@[simp] theorem selectEndpoint_ep0 (n : EpNum) (s : State) : (selectEndpoint n s).ep0 = s.ep0 := rfl
@[simp] theorem selectEndpoint_kbd (n : EpNum) (s : State) : (selectEndpoint n s).kbd = s.kbd := rfl
@[simp] theorem selectEndpoint_pins (n : EpNum) (s : State) : (selectEndpoint n s).pins = s.pins := rfl
@[simp] theorem selectEndpoint_sw (n : EpNum) (s : State) : (selectEndpoint n s).sw = s.sw := rfl
@[simp] theorem selectEndpoint_hostTrace (n : EpNum) (s : State) : (selectEndpoint n s).hostTrace = s.hostTrace := rfl
@[simp] theorem selectEndpoint_par (n : EpNum) (s : State) : (selectEndpoint n s).par = s.par := rfl
@[simp] theorem selectEndpoint_sched (n : EpNum) (s : State) : (selectEndpoint n s).sched = s.sched := rfl
@[simp] theorem selectEndpoint_turn (n : EpNum) (s : State) : (selectEndpoint n s).turn = s.turn := rfl
@[simp] theorem selectEndpoint_cfgAnswers (n : EpNum) (s : State) : (selectEndpoint n s).cfgAnswers = s.cfgAnswers := rfl
@[simp] theorem selectEndpoint_draws (n : EpNum) (s : State) : (selectEndpoint n s).draws = s.draws := rfl
@[simp] theorem selectEndpoint_answer (n : EpNum) (s : State) : (selectEndpoint n s).answer = s.answer := rfl

/-! dropCfgAnswer -/

@[simp] theorem dropCfgAnswer_ctl (s : State) : (dropCfgAnswer s).ctl = s.ctl := rfl
@[simp] theorem dropCfgAnswer_ev (s : State) : (dropCfgAnswer s).ev = s.ev := rfl
@[simp] theorem dropCfgAnswer_disp (s : State) : (dropCfgAnswer s).disp = s.disp := rfl
@[simp] theorem dropCfgAnswer_scan (s : State) : (dropCfgAnswer s).scan = s.scan := rfl
@[simp] theorem dropCfgAnswer_krs (s : State) : (dropCfgAnswer s).krs = s.krs := rfl
@[simp] theorem dropCfgAnswer_epSel (s : State) : (dropCfgAnswer s).epSel = s.epSel := rfl
@[simp] theorem dropCfgAnswer_uaddr (s : State) : (dropCfgAnswer s).uaddr = s.uaddr := rfl
@[simp] theorem dropCfgAnswer_adden (s : State) : (dropCfgAnswer s).adden = s.adden := rfl
@[simp] theorem dropCfgAnswer_ep0 (s : State) : (dropCfgAnswer s).ep0 = s.ep0 := rfl
@[simp] theorem dropCfgAnswer_kbd (s : State) : (dropCfgAnswer s).kbd = s.kbd := rfl
@[simp] theorem dropCfgAnswer_pins (s : State) : (dropCfgAnswer s).pins = s.pins := rfl
@[simp] theorem dropCfgAnswer_sw (s : State) : (dropCfgAnswer s).sw = s.sw := rfl
@[simp] theorem dropCfgAnswer_hostTrace (s : State) : (dropCfgAnswer s).hostTrace = s.hostTrace := rfl
@[simp] theorem dropCfgAnswer_par (s : State) : (dropCfgAnswer s).par = s.par := rfl
@[simp] theorem dropCfgAnswer_sched (s : State) : (dropCfgAnswer s).sched = s.sched := rfl
@[simp] theorem dropCfgAnswer_turn (s : State) : (dropCfgAnswer s).turn = s.turn := rfl
@[simp] theorem dropCfgAnswer_cfgAnswers (s : State) : (dropCfgAnswer s).cfgAnswers = s.cfgAnswers.tail := rfl
@[simp] theorem dropCfgAnswer_draws (s : State) : (dropCfgAnswer s).draws = s.draws := rfl
@[simp] theorem dropCfgAnswer_answer (s : State) : (dropCfgAnswer s).answer = s.answer := rfl

/-! clearSetupFlag -/

@[simp] theorem clearSetupFlag_ctl (s : State) : (clearSetupFlag s).ctl = s.ctl := rfl
@[simp] theorem clearSetupFlag_ev (s : State) : (clearSetupFlag s).ev = s.ev := rfl
@[simp] theorem clearSetupFlag_disp (s : State) : (clearSetupFlag s).disp = s.disp := rfl
@[simp] theorem clearSetupFlag_scan (s : State) : (clearSetupFlag s).scan = s.scan := rfl
@[simp] theorem clearSetupFlag_krs (s : State) : (clearSetupFlag s).krs = s.krs := rfl
@[simp] theorem clearSetupFlag_epSel (s : State) : (clearSetupFlag s).epSel = s.epSel := rfl
@[simp] theorem clearSetupFlag_uaddr (s : State) : (clearSetupFlag s).uaddr = s.uaddr := rfl
@[simp] theorem clearSetupFlag_adden (s : State) : (clearSetupFlag s).adden = s.adden := rfl
@[simp] theorem clearSetupFlag_ep0 (s : State) : (clearSetupFlag s).ep0 = { s.ep0 with setupPend := false, fifo := [] } := rfl
@[simp] theorem clearSetupFlag_kbd (s : State) : (clearSetupFlag s).kbd = s.kbd := rfl
@[simp] theorem clearSetupFlag_pins (s : State) : (clearSetupFlag s).pins = s.pins := rfl
@[simp] theorem clearSetupFlag_sw (s : State) : (clearSetupFlag s).sw = s.sw := rfl
@[simp] theorem clearSetupFlag_hostTrace (s : State) : (clearSetupFlag s).hostTrace = s.hostTrace := rfl
@[simp] theorem clearSetupFlag_par (s : State) : (clearSetupFlag s).par = s.par := rfl
@[simp] theorem clearSetupFlag_sched (s : State) : (clearSetupFlag s).sched = s.sched := rfl
@[simp] theorem clearSetupFlag_turn (s : State) : (clearSetupFlag s).turn = s.turn := rfl
@[simp] theorem clearSetupFlag_cfgAnswers (s : State) : (clearSetupFlag s).cfgAnswers = s.cfgAnswers := rfl
@[simp] theorem clearSetupFlag_draws (s : State) : (clearSetupFlag s).draws = s.draws := rfl
@[simp] theorem clearSetupFlag_answer (s : State) : (clearSetupFlag s).answer = s.answer := rfl

/-! clearSendFlag -/

@[simp] theorem clearSendFlag_ctl (s : State) : (clearSendFlag s).ctl = s.ctl := rfl
@[simp] theorem clearSendFlag_ev (s : State) : (clearSendFlag s).ev = s.ev := rfl
@[simp] theorem clearSendFlag_disp (s : State) : (clearSendFlag s).disp = s.disp := rfl
@[simp] theorem clearSendFlag_scan (s : State) : (clearSendFlag s).scan = s.scan := rfl
@[simp] theorem clearSendFlag_krs (s : State) : (clearSendFlag s).krs = s.krs := rfl
@[simp] theorem clearSendFlag_epSel (s : State) : (clearSendFlag s).epSel = s.epSel := rfl
@[simp] theorem clearSendFlag_uaddr (s : State) : (clearSendFlag s).uaddr = s.uaddr := rfl
@[simp] theorem clearSendFlag_adden (s : State) : (clearSendFlag s).adden = s.adden := rfl
@[simp] theorem clearSendFlag_ep0 (s : State) : (clearSendFlag s).ep0 = { s.ep0 with inPkt := some s.ep0.fifo, fifo := [], txReady := false } := rfl
@[simp] theorem clearSendFlag_kbd (s : State) : (clearSendFlag s).kbd = s.kbd := rfl
@[simp] theorem clearSendFlag_pins (s : State) : (clearSendFlag s).pins = s.pins := rfl
@[simp] theorem clearSendFlag_sw (s : State) : (clearSendFlag s).sw = s.sw := rfl
@[simp] theorem clearSendFlag_hostTrace (s : State) : (clearSendFlag s).hostTrace = s.hostTrace := rfl
@[simp] theorem clearSendFlag_par (s : State) : (clearSendFlag s).par = s.par := rfl
@[simp] theorem clearSendFlag_sched (s : State) : (clearSendFlag s).sched = s.sched := rfl
@[simp] theorem clearSendFlag_turn (s : State) : (clearSendFlag s).turn = s.turn := rfl
@[simp] theorem clearSendFlag_cfgAnswers (s : State) : (clearSendFlag s).cfgAnswers = s.cfgAnswers := rfl
@[simp] theorem clearSendFlag_draws (s : State) : (clearSendFlag s).draws = s.draws := rfl
@[simp] theorem clearSendFlag_answer (s : State) : (clearSendFlag s).answer = s.answer := rfl

/-! clearReceiveFlag -/

@[simp] theorem clearReceiveFlag_ctl (s : State) : (clearReceiveFlag s).ctl = s.ctl := rfl
@[simp] theorem clearReceiveFlag_ev (s : State) : (clearReceiveFlag s).ev = s.ev := rfl
@[simp] theorem clearReceiveFlag_disp (s : State) : (clearReceiveFlag s).disp = s.disp := rfl
@[simp] theorem clearReceiveFlag_scan (s : State) : (clearReceiveFlag s).scan = s.scan := rfl
@[simp] theorem clearReceiveFlag_krs (s : State) : (clearReceiveFlag s).krs = s.krs := rfl
@[simp] theorem clearReceiveFlag_epSel (s : State) : (clearReceiveFlag s).epSel = s.epSel := rfl
@[simp] theorem clearReceiveFlag_uaddr (s : State) : (clearReceiveFlag s).uaddr = s.uaddr := rfl
@[simp] theorem clearReceiveFlag_adden (s : State) : (clearReceiveFlag s).adden = s.adden := rfl
@[simp] theorem clearReceiveFlag_ep0 (s : State) : (clearReceiveFlag s).ep0 = { s.ep0 with rxPend := false, fifo := [] } := rfl
@[simp] theorem clearReceiveFlag_kbd (s : State) : (clearReceiveFlag s).kbd = s.kbd := rfl
@[simp] theorem clearReceiveFlag_pins (s : State) : (clearReceiveFlag s).pins = s.pins := rfl
@[simp] theorem clearReceiveFlag_sw (s : State) : (clearReceiveFlag s).sw = s.sw := rfl
@[simp] theorem clearReceiveFlag_hostTrace (s : State) : (clearReceiveFlag s).hostTrace = s.hostTrace := rfl
@[simp] theorem clearReceiveFlag_par (s : State) : (clearReceiveFlag s).par = s.par := rfl
@[simp] theorem clearReceiveFlag_sched (s : State) : (clearReceiveFlag s).sched = s.sched := rfl
@[simp] theorem clearReceiveFlag_turn (s : State) : (clearReceiveFlag s).turn = s.turn := rfl
@[simp] theorem clearReceiveFlag_cfgAnswers (s : State) : (clearReceiveFlag s).cfgAnswers = s.cfgAnswers := rfl
@[simp] theorem clearReceiveFlag_draws (s : State) : (clearReceiveFlag s).draws = s.draws := rfl
@[simp] theorem clearReceiveFlag_answer (s : State) : (clearReceiveFlag s).answer = s.answer := rfl

/-! stall -/

@[simp] theorem stall_ctl (s : State) : (stall s).ctl = s.ctl := rfl
@[simp] theorem stall_ev (s : State) : (stall s).ev = s.ev := rfl
@[simp] theorem stall_disp (s : State) : (stall s).disp = s.disp := rfl
@[simp] theorem stall_scan (s : State) : (stall s).scan = s.scan := rfl
@[simp] theorem stall_krs (s : State) : (stall s).krs = s.krs := rfl
@[simp] theorem stall_epSel (s : State) : (stall s).epSel = s.epSel := rfl
@[simp] theorem stall_uaddr (s : State) : (stall s).uaddr = s.uaddr := rfl
@[simp] theorem stall_adden (s : State) : (stall s).adden = s.adden := rfl
@[simp] theorem stall_ep0 (s : State) : (stall s).ep0 = { s.ep0 with stallReq := true } := rfl
@[simp] theorem stall_kbd (s : State) : (stall s).kbd = s.kbd := rfl
@[simp] theorem stall_pins (s : State) : (stall s).pins = s.pins := rfl
@[simp] theorem stall_sw (s : State) : (stall s).sw = s.sw := rfl
@[simp] theorem stall_hostTrace (s : State) : (stall s).hostTrace = s.hostTrace := rfl
@[simp] theorem stall_par (s : State) : (stall s).par = s.par := rfl
@[simp] theorem stall_sched (s : State) : (stall s).sched = s.sched := rfl
@[simp] theorem stall_turn (s : State) : (stall s).turn = s.turn := rfl
@[simp] theorem stall_cfgAnswers (s : State) : (stall s).cfgAnswers = s.cfgAnswers := rfl
@[simp] theorem stall_draws (s : State) : (stall s).draws = s.draws := rfl
@[simp] theorem stall_answer (s : State) : (stall s).answer = s.answer := rfl

/-! writeAddress -/

@[simp] theorem writeAddress_ctl (a : UsbAddr) (s : State) : (writeAddress a s).ctl = s.ctl := rfl
@[simp] theorem writeAddress_ev (a : UsbAddr) (s : State) : (writeAddress a s).ev = s.ev := rfl
@[simp] theorem writeAddress_disp (a : UsbAddr) (s : State) : (writeAddress a s).disp = s.disp := rfl
@[simp] theorem writeAddress_scan (a : UsbAddr) (s : State) : (writeAddress a s).scan = s.scan := rfl
@[simp] theorem writeAddress_krs (a : UsbAddr) (s : State) : (writeAddress a s).krs = s.krs := rfl
@[simp] theorem writeAddress_epSel (a : UsbAddr) (s : State) : (writeAddress a s).epSel = s.epSel := rfl
@[simp] theorem writeAddress_uaddr (a : UsbAddr) (s : State) : (writeAddress a s).uaddr = a := rfl
@[simp] theorem writeAddress_adden (a : UsbAddr) (s : State) : (writeAddress a s).adden = true := rfl
@[simp] theorem writeAddress_ep0 (a : UsbAddr) (s : State) : (writeAddress a s).ep0 = s.ep0 := rfl
@[simp] theorem writeAddress_kbd (a : UsbAddr) (s : State) : (writeAddress a s).kbd = s.kbd := rfl
@[simp] theorem writeAddress_pins (a : UsbAddr) (s : State) : (writeAddress a s).pins = s.pins := rfl
@[simp] theorem writeAddress_sw (a : UsbAddr) (s : State) : (writeAddress a s).sw = s.sw := rfl
@[simp] theorem writeAddress_hostTrace (a : UsbAddr) (s : State) : (writeAddress a s).hostTrace = s.hostTrace ++ [.addr a] := rfl
@[simp] theorem writeAddress_par (a : UsbAddr) (s : State) : (writeAddress a s).par = s.par := rfl
@[simp] theorem writeAddress_sched (a : UsbAddr) (s : State) : (writeAddress a s).sched = s.sched := rfl
@[simp] theorem writeAddress_turn (a : UsbAddr) (s : State) : (writeAddress a s).turn = s.turn := rfl
@[simp] theorem writeAddress_cfgAnswers (a : UsbAddr) (s : State) : (writeAddress a s).cfgAnswers = s.cfgAnswers := rfl
@[simp] theorem writeAddress_draws (a : UsbAddr) (s : State) : (writeAddress a s).draws = s.draws := rfl
@[simp] theorem writeAddress_answer (a : UsbAddr) (s : State) : (writeAddress a s).answer = s.answer := rfl

/-! kbdRearm -/

@[simp] theorem kbdRearm_ctl (s : State) : (kbdRearm s).ctl = s.ctl := rfl
@[simp] theorem kbdRearm_ev (s : State) : (kbdRearm s).ev = s.ev := rfl
@[simp] theorem kbdRearm_disp (s : State) : (kbdRearm s).disp = s.disp := rfl
@[simp] theorem kbdRearm_scan (s : State) : (kbdRearm s).scan = s.scan := rfl
@[simp] theorem kbdRearm_krs (s : State) : (kbdRearm s).krs = s.krs := rfl
@[simp] theorem kbdRearm_epSel (s : State) : (kbdRearm s).epSel = s.epSel := rfl
@[simp] theorem kbdRearm_uaddr (s : State) : (kbdRearm s).uaddr = s.uaddr := rfl
@[simp] theorem kbdRearm_adden (s : State) : (kbdRearm s).adden = s.adden := rfl
@[simp] theorem kbdRearm_ep0 (s : State) : (kbdRearm s).ep0 = s.ep0 := rfl
@[simp] theorem kbdRearm_kbd (s : State) : (kbdRearm s).kbd = { s.kbd with inPkt := some s.kbd.fifo, fifo := [], rwal := false } := rfl
@[simp] theorem kbdRearm_pins (s : State) : (kbdRearm s).pins = s.pins := rfl
@[simp] theorem kbdRearm_sw (s : State) : (kbdRearm s).sw = s.sw := rfl
@[simp] theorem kbdRearm_hostTrace (s : State) : (kbdRearm s).hostTrace = s.hostTrace := rfl
@[simp] theorem kbdRearm_par (s : State) : (kbdRearm s).par = s.par := rfl
@[simp] theorem kbdRearm_sched (s : State) : (kbdRearm s).sched = s.sched := rfl
@[simp] theorem kbdRearm_turn (s : State) : (kbdRearm s).turn = s.turn := rfl
@[simp] theorem kbdRearm_cfgAnswers (s : State) : (kbdRearm s).cfgAnswers = s.cfgAnswers := rfl
@[simp] theorem kbdRearm_draws (s : State) : (kbdRearm s).draws = s.draws := rfl
@[simp] theorem kbdRearm_answer (s : State) : (kbdRearm s).answer = s.answer := rfl

/-! setDirection -/

@[simp] theorem setDirection_ctl (r : Nat) (b : Bool) (s : State) : (setDirection r b s).ctl = s.ctl := rfl
@[simp] theorem setDirection_ev (r : Nat) (b : Bool) (s : State) : (setDirection r b s).ev = s.ev := rfl
@[simp] theorem setDirection_disp (r : Nat) (b : Bool) (s : State) : (setDirection r b s).disp = s.disp := rfl
@[simp] theorem setDirection_scan (r : Nat) (b : Bool) (s : State) : (setDirection r b s).scan = s.scan := rfl
@[simp] theorem setDirection_krs (r : Nat) (b : Bool) (s : State) : (setDirection r b s).krs = s.krs := rfl
@[simp] theorem setDirection_epSel (r : Nat) (b : Bool) (s : State) : (setDirection r b s).epSel = s.epSel := rfl
@[simp] theorem setDirection_uaddr (r : Nat) (b : Bool) (s : State) : (setDirection r b s).uaddr = s.uaddr := rfl
@[simp] theorem setDirection_adden (r : Nat) (b : Bool) (s : State) : (setDirection r b s).adden = s.adden := rfl
@[simp] theorem setDirection_ep0 (r : Nat) (b : Bool) (s : State) : (setDirection r b s).ep0 = s.ep0 := rfl
@[simp] theorem setDirection_kbd (r : Nat) (b : Bool) (s : State) : (setDirection r b s).kbd = s.kbd := rfl
@[simp] theorem setDirection_pins (r : Nat) (b : Bool) (s : State) : (setDirection r b s).pins = { s.pins with rowDir := s.pins.rowDir.set r b } := rfl
@[simp] theorem setDirection_sw (r : Nat) (b : Bool) (s : State) : (setDirection r b s).sw = s.sw := rfl
@[simp] theorem setDirection_hostTrace (r : Nat) (b : Bool) (s : State) : (setDirection r b s).hostTrace = s.hostTrace := rfl
@[simp] theorem setDirection_par (r : Nat) (b : Bool) (s : State) : (setDirection r b s).par = s.par := rfl
@[simp] theorem setDirection_sched (r : Nat) (b : Bool) (s : State) : (setDirection r b s).sched = s.sched := rfl
@[simp] theorem setDirection_turn (r : Nat) (b : Bool) (s : State) : (setDirection r b s).turn = s.turn := rfl
@[simp] theorem setDirection_cfgAnswers (r : Nat) (b : Bool) (s : State) : (setDirection r b s).cfgAnswers = s.cfgAnswers := rfl
@[simp] theorem setDirection_draws (r : Nat) (b : Bool) (s : State) : (setDirection r b s).draws = s.draws := rfl
@[simp] theorem setDirection_answer (r : Nat) (b : Bool) (s : State) : (setDirection r b s).answer = s.answer := rfl

/-! setLevel -/

@[simp] theorem setLevel_ctl (r : Nat) (b : Bool) (s : State) : (setLevel r b s).ctl = s.ctl := rfl
@[simp] theorem setLevel_ev (r : Nat) (b : Bool) (s : State) : (setLevel r b s).ev = s.ev := rfl
@[simp] theorem setLevel_disp (r : Nat) (b : Bool) (s : State) : (setLevel r b s).disp = s.disp := rfl
@[simp] theorem setLevel_scan (r : Nat) (b : Bool) (s : State) : (setLevel r b s).scan = s.scan := rfl
@[simp] theorem setLevel_krs (r : Nat) (b : Bool) (s : State) : (setLevel r b s).krs = s.krs := rfl
@[simp] theorem setLevel_epSel (r : Nat) (b : Bool) (s : State) : (setLevel r b s).epSel = s.epSel := rfl
@[simp] theorem setLevel_uaddr (r : Nat) (b : Bool) (s : State) : (setLevel r b s).uaddr = s.uaddr := rfl
@[simp] theorem setLevel_adden (r : Nat) (b : Bool) (s : State) : (setLevel r b s).adden = s.adden := rfl
@[simp] theorem setLevel_ep0 (r : Nat) (b : Bool) (s : State) : (setLevel r b s).ep0 = s.ep0 := rfl
@[simp] theorem setLevel_kbd (r : Nat) (b : Bool) (s : State) : (setLevel r b s).kbd = s.kbd := rfl
@[simp] theorem setLevel_pins (r : Nat) (b : Bool) (s : State) : (setLevel r b s).pins = { s.pins with rowLvl := s.pins.rowLvl.set r b } := rfl
@[simp] theorem setLevel_sw (r : Nat) (b : Bool) (s : State) : (setLevel r b s).sw = s.sw := rfl
@[simp] theorem setLevel_hostTrace (r : Nat) (b : Bool) (s : State) : (setLevel r b s).hostTrace = s.hostTrace := rfl
@[simp] theorem setLevel_par (r : Nat) (b : Bool) (s : State) : (setLevel r b s).par = s.par := rfl
@[simp] theorem setLevel_sched (r : Nat) (b : Bool) (s : State) : (setLevel r b s).sched = s.sched := rfl
@[simp] theorem setLevel_turn (r : Nat) (b : Bool) (s : State) : (setLevel r b s).turn = s.turn := rfl
@[simp] theorem setLevel_cfgAnswers (r : Nat) (b : Bool) (s : State) : (setLevel r b s).cfgAnswers = s.cfgAnswers := rfl
@[simp] theorem setLevel_draws (r : Nat) (b : Bool) (s : State) : (setLevel r b s).draws = s.draws := rfl
@[simp] theorem setLevel_answer (r : Nat) (b : Bool) (s : State) : (setLevel r b s).answer = s.answer := rfl

/-! setPhase -/

@[simp] theorem setPhase_ctl (ph : DPhase) (s : State) : (setPhase ph s).ctl = s.ctl := rfl
@[simp] theorem setPhase_ev (ph : DPhase) (s : State) : (setPhase ph s).ev = s.ev := rfl
@[simp] theorem setPhase_disp (ph : DPhase) (s : State) : (setPhase ph s).disp = { s.disp with dphase := ph } := rfl
@[simp] theorem setPhase_scan (ph : DPhase) (s : State) : (setPhase ph s).scan = s.scan := rfl
@[simp] theorem setPhase_krs (ph : DPhase) (s : State) : (setPhase ph s).krs = s.krs := rfl
@[simp] theorem setPhase_epSel (ph : DPhase) (s : State) : (setPhase ph s).epSel = s.epSel := rfl
@[simp] theorem setPhase_uaddr (ph : DPhase) (s : State) : (setPhase ph s).uaddr = s.uaddr := rfl
@[simp] theorem setPhase_adden (ph : DPhase) (s : State) : (setPhase ph s).adden = s.adden := rfl
@[simp] theorem setPhase_ep0 (ph : DPhase) (s : State) : (setPhase ph s).ep0 = s.ep0 := rfl
@[simp] theorem setPhase_kbd (ph : DPhase) (s : State) : (setPhase ph s).kbd = s.kbd := rfl
@[simp] theorem setPhase_pins (ph : DPhase) (s : State) : (setPhase ph s).pins = s.pins := rfl
@[simp] theorem setPhase_sw (ph : DPhase) (s : State) : (setPhase ph s).sw = s.sw := rfl
@[simp] theorem setPhase_hostTrace (ph : DPhase) (s : State) : (setPhase ph s).hostTrace = s.hostTrace := rfl
@[simp] theorem setPhase_par (ph : DPhase) (s : State) : (setPhase ph s).par = s.par := rfl
@[simp] theorem setPhase_sched (ph : DPhase) (s : State) : (setPhase ph s).sched = s.sched := rfl
@[simp] theorem setPhase_turn (ph : DPhase) (s : State) : (setPhase ph s).turn = s.turn := rfl
@[simp] theorem setPhase_cfgAnswers (ph : DPhase) (s : State) : (setPhase ph s).cfgAnswers = s.cfgAnswers := rfl
@[simp] theorem setPhase_draws (ph : DPhase) (s : State) : (setPhase ph s).draws = s.draws := rfl
@[simp] theorem setPhase_answer (ph : DPhase) (s : State) : (setPhase ph s).answer = s.answer := rfl

/-! endDispatch -/

@[simp] theorem endDispatch_ctl (s : State) : (endDispatch s).ctl = s.ctl := rfl
@[simp] theorem endDispatch_ev (s : State) : (endDispatch s).ev = s.ev := rfl
@[simp] theorem endDispatch_disp (s : State) : (endDispatch s).disp = { s.disp with dphase := .idle } := rfl
@[simp] theorem endDispatch_scan (s : State) : (endDispatch s).scan = s.scan := rfl
@[simp] theorem endDispatch_krs (s : State) : (endDispatch s).krs = s.krs := rfl
@[simp] theorem endDispatch_epSel (s : State) : (endDispatch s).epSel = s.epSel := rfl
@[simp] theorem endDispatch_uaddr (s : State) : (endDispatch s).uaddr = s.uaddr := rfl
@[simp] theorem endDispatch_adden (s : State) : (endDispatch s).adden = s.adden := rfl
@[simp] theorem endDispatch_ep0 (s : State) : (endDispatch s).ep0 = s.ep0 := rfl
@[simp] theorem endDispatch_kbd (s : State) : (endDispatch s).kbd = s.kbd := rfl
@[simp] theorem endDispatch_pins (s : State) : (endDispatch s).pins = s.pins := rfl
@[simp] theorem endDispatch_sw (s : State) : (endDispatch s).sw = s.sw := rfl
@[simp] theorem endDispatch_hostTrace (s : State) : (endDispatch s).hostTrace = s.hostTrace := rfl
@[simp] theorem endDispatch_par (s : State) : (endDispatch s).par = s.par := rfl
@[simp] theorem endDispatch_sched (s : State) : (endDispatch s).sched = s.sched := rfl
@[simp] theorem endDispatch_turn (s : State) : (endDispatch s).turn = s.turn := rfl
@[simp] theorem endDispatch_cfgAnswers (s : State) : (endDispatch s).cfgAnswers = s.cfgAnswers := rfl
@[simp] theorem endDispatch_draws (s : State) : (endDispatch s).draws = s.draws := rfl
@[simp] theorem endDispatch_answer (s : State) : (endDispatch s).answer = s.answer := rfl

/-! restartScan -/

@[simp] theorem restartScan_ctl (s : State) : (restartScan s).ctl = s.ctl := rfl
@[simp] theorem restartScan_ev (s : State) : (restartScan s).ev = s.ev := rfl
@[simp] theorem restartScan_disp (s : State) : (restartScan s).disp = s.disp := rfl
@[simp] theorem restartScan_scan (s : State) : (restartScan s).scan = { s.scan with mphase := .scan, scanRow := 0, scanAcc := false } := rfl
@[simp] theorem restartScan_krs (s : State) : (restartScan s).krs = s.krs := rfl
@[simp] theorem restartScan_epSel (s : State) : (restartScan s).epSel = s.epSel := rfl
@[simp] theorem restartScan_uaddr (s : State) : (restartScan s).uaddr = s.uaddr := rfl
@[simp] theorem restartScan_adden (s : State) : (restartScan s).adden = s.adden := rfl
@[simp] theorem restartScan_ep0 (s : State) : (restartScan s).ep0 = s.ep0 := rfl
@[simp] theorem restartScan_kbd (s : State) : (restartScan s).kbd = s.kbd := rfl
@[simp] theorem restartScan_pins (s : State) : (restartScan s).pins = s.pins := rfl
@[simp] theorem restartScan_sw (s : State) : (restartScan s).sw = s.sw := rfl
@[simp] theorem restartScan_hostTrace (s : State) : (restartScan s).hostTrace = s.hostTrace := rfl
@[simp] theorem restartScan_par (s : State) : (restartScan s).par = s.par := rfl
@[simp] theorem restartScan_sched (s : State) : (restartScan s).sched = s.sched := rfl
@[simp] theorem restartScan_turn (s : State) : (restartScan s).turn = s.turn := rfl
@[simp] theorem restartScan_cfgAnswers (s : State) : (restartScan s).cfgAnswers = s.cfgAnswers := rfl
@[simp] theorem restartScan_draws (s : State) : (restartScan s).draws = s.draws := rfl
@[simp] theorem restartScan_answer (s : State) : (restartScan s).answer = s.answer := rfl

/-! endOfScan -/

@[simp] theorem endOfScan_ctl (s : State) : (endOfScan s).ctl = s.ctl := rfl
@[simp] theorem endOfScan_ev (s : State) : (endOfScan s).ev = s.ev := rfl
@[simp] theorem endOfScan_disp (s : State) : (endOfScan s).disp = s.disp := rfl
@[simp] theorem endOfScan_scan (s : State) : (endOfScan s).scan = { s.scan with scanChanged := s.scan.scanAcc, scanAcc := false, scanRow := 0, mphase := .state } := rfl
@[simp] theorem endOfScan_krs (s : State) : (endOfScan s).krs = s.krs := rfl
@[simp] theorem endOfScan_epSel (s : State) : (endOfScan s).epSel = s.epSel := rfl
@[simp] theorem endOfScan_uaddr (s : State) : (endOfScan s).uaddr = s.uaddr := rfl
@[simp] theorem endOfScan_adden (s : State) : (endOfScan s).adden = s.adden := rfl
@[simp] theorem endOfScan_ep0 (s : State) : (endOfScan s).ep0 = s.ep0 := rfl
@[simp] theorem endOfScan_kbd (s : State) : (endOfScan s).kbd = s.kbd := rfl
@[simp] theorem endOfScan_pins (s : State) : (endOfScan s).pins = s.pins := rfl
@[simp] theorem endOfScan_sw (s : State) : (endOfScan s).sw = s.sw := rfl
@[simp] theorem endOfScan_hostTrace (s : State) : (endOfScan s).hostTrace = s.hostTrace := rfl
@[simp] theorem endOfScan_par (s : State) : (endOfScan s).par = s.par := rfl
@[simp] theorem endOfScan_sched (s : State) : (endOfScan s).sched = s.sched := rfl
@[simp] theorem endOfScan_turn (s : State) : (endOfScan s).turn = s.turn := rfl
@[simp] theorem endOfScan_cfgAnswers (s : State) : (endOfScan s).cfgAnswers = s.cfgAnswers := rfl
@[simp] theorem endOfScan_draws (s : State) : (endOfScan s).draws = s.draws := rfl
@[simp] theorem endOfScan_answer (s : State) : (endOfScan s).answer = s.answer := rfl

/-! passTurn -/

@[simp] theorem passTurn_ctl (s : State) : (passTurn s).ctl = s.ctl := rfl
@[simp] theorem passTurn_ev (s : State) : (passTurn s).ev = s.ev := rfl
@[simp] theorem passTurn_disp (s : State) : (passTurn s).disp = s.disp := rfl
@[simp] theorem passTurn_scan (s : State) : (passTurn s).scan = s.scan := rfl
@[simp] theorem passTurn_krs (s : State) : (passTurn s).krs = s.krs := rfl
@[simp] theorem passTurn_epSel (s : State) : (passTurn s).epSel = s.epSel := rfl
@[simp] theorem passTurn_uaddr (s : State) : (passTurn s).uaddr = s.uaddr := rfl
@[simp] theorem passTurn_adden (s : State) : (passTurn s).adden = s.adden := rfl
@[simp] theorem passTurn_ep0 (s : State) : (passTurn s).ep0 = s.ep0 := rfl
@[simp] theorem passTurn_kbd (s : State) : (passTurn s).kbd = s.kbd := rfl
@[simp] theorem passTurn_pins (s : State) : (passTurn s).pins = s.pins := rfl
@[simp] theorem passTurn_sw (s : State) : (passTurn s).sw = s.sw := rfl
@[simp] theorem passTurn_hostTrace (s : State) : (passTurn s).hostTrace = s.hostTrace := rfl
@[simp] theorem passTurn_par (s : State) : (passTurn s).par = s.par := rfl
@[simp] theorem passTurn_sched (s : State) : (passTurn s).sched = s.sched.tail := rfl
@[simp] theorem passTurn_turn (s : State) : (passTurn s).turn = s.turn + 1 := rfl
@[simp] theorem passTurn_cfgAnswers (s : State) : (passTurn s).cfgAnswers = s.cfgAnswers := rfl
@[simp] theorem passTurn_draws (s : State) : (passTurn s).draws = s.draws := rfl
@[simp] theorem passTurn_answer (s : State) : (passTurn s).answer = s.answer := rfl

/-! reply -/

@[simp] theorem reply_ctl (a : Answer) (s : State) : (reply a s).ctl = s.ctl := rfl
@[simp] theorem reply_ev (a : Answer) (s : State) : (reply a s).ev = s.ev := rfl
@[simp] theorem reply_disp (a : Answer) (s : State) : (reply a s).disp = s.disp := rfl
@[simp] theorem reply_scan (a : Answer) (s : State) : (reply a s).scan = s.scan := rfl
@[simp] theorem reply_krs (a : Answer) (s : State) : (reply a s).krs = s.krs := rfl
@[simp] theorem reply_epSel (a : Answer) (s : State) : (reply a s).epSel = s.epSel := rfl
@[simp] theorem reply_uaddr (a : Answer) (s : State) : (reply a s).uaddr = s.uaddr := rfl
@[simp] theorem reply_adden (a : Answer) (s : State) : (reply a s).adden = s.adden := rfl
@[simp] theorem reply_ep0 (a : Answer) (s : State) : (reply a s).ep0 = s.ep0 := rfl
@[simp] theorem reply_kbd (a : Answer) (s : State) : (reply a s).kbd = s.kbd := rfl
@[simp] theorem reply_pins (a : Answer) (s : State) : (reply a s).pins = s.pins := rfl
@[simp] theorem reply_sw (a : Answer) (s : State) : (reply a s).sw = s.sw := rfl
@[simp] theorem reply_hostTrace (a : Answer) (s : State) : (reply a s).hostTrace = s.hostTrace := rfl
@[simp] theorem reply_par (a : Answer) (s : State) : (reply a s).par = s.par := rfl
@[simp] theorem reply_sched (a : Answer) (s : State) : (reply a s).sched = s.sched := rfl
@[simp] theorem reply_turn (a : Answer) (s : State) : (reply a s).turn = s.turn := rfl
@[simp] theorem reply_cfgAnswers (a : Answer) (s : State) : (reply a s).cfgAnswers = s.cfgAnswers := rfl
@[simp] theorem reply_draws (a : Answer) (s : State) : (reply a s).draws = s.draws := rfl
@[simp] theorem reply_answer (a : Answer) (s : State) : (reply a s).answer = a := rfl

/-! takeEvent -/

@[simp] theorem takeEvent_ctl (e : Event) (s : State) : (takeEvent e s).ctl = s.ctl := by cases e <;> rfl
@[simp] theorem takeEvent_disp (e : Event) (s : State) : (takeEvent e s).disp = s.disp := by cases e <;> rfl
@[simp] theorem takeEvent_scan (e : Event) (s : State) : (takeEvent e s).scan = s.scan := by cases e <;> rfl
@[simp] theorem takeEvent_krs (e : Event) (s : State) : (takeEvent e s).krs = s.krs := by cases e <;> rfl
@[simp] theorem takeEvent_epSel (e : Event) (s : State) : (takeEvent e s).epSel = s.epSel := by cases e <;> rfl
@[simp] theorem takeEvent_uaddr (e : Event) (s : State) : (takeEvent e s).uaddr = s.uaddr := by cases e <;> rfl
@[simp] theorem takeEvent_adden (e : Event) (s : State) : (takeEvent e s).adden = s.adden := by cases e <;> rfl
@[simp] theorem takeEvent_ep0 (e : Event) (s : State) : (takeEvent e s).ep0 = s.ep0 := by cases e <;> rfl
@[simp] theorem takeEvent_kbd (e : Event) (s : State) : (takeEvent e s).kbd = s.kbd := by cases e <;> rfl
@[simp] theorem takeEvent_pins (e : Event) (s : State) : (takeEvent e s).pins = s.pins := by cases e <;> rfl
@[simp] theorem takeEvent_sw (e : Event) (s : State) : (takeEvent e s).sw = s.sw := by cases e <;> rfl
@[simp] theorem takeEvent_hostTrace (e : Event) (s : State) : (takeEvent e s).hostTrace = s.hostTrace := by cases e <;> rfl
@[simp] theorem takeEvent_par (e : Event) (s : State) : (takeEvent e s).par = s.par := by cases e <;> rfl
@[simp] theorem takeEvent_sched (e : Event) (s : State) : (takeEvent e s).sched = s.sched := by cases e <;> rfl
@[simp] theorem takeEvent_turn (e : Event) (s : State) : (takeEvent e s).turn = s.turn := by cases e <;> rfl
@[simp] theorem takeEvent_cfgAnswers (e : Event) (s : State) : (takeEvent e s).cfgAnswers = s.cfgAnswers := by cases e <;> rfl
@[simp] theorem takeEvent_draws (e : Event) (s : State) : (takeEvent e s).draws = s.draws := by cases e <;> rfl
@[simp] theorem takeEvent_answer (e : Event) (s : State) : (takeEvent e s).answer = s.answer := by cases e <;> rfl
@[simp] theorem takeEvent_eor_ev (s : State) : (takeEvent .eor s).ev = { s.ev with eorPend := false } := rfl
@[simp] theorem takeEvent_sof_ev (s : State) : (takeEvent .sof s).ev = { s.ev with sofPend := false } := rfl
@[simp] theorem takeEvent_comm_ev (s : State) : (takeEvent .comm s).ev = { s.ev with commPend := false } := rfl

/-! latchRequest -/

@[simp] theorem latchRequest_ctl (rq : SetupRequest) (s : State) : (latchRequest rq s).ctl = s.ctl := rfl
@[simp] theorem latchRequest_ev (rq : SetupRequest) (s : State) : (latchRequest rq s).ev = s.ev := rfl
@[simp] theorem latchRequest_disp (rq : SetupRequest) (s : State) : (latchRequest rq s).disp = { s.disp with rq := rq } := rfl
@[simp] theorem latchRequest_scan (rq : SetupRequest) (s : State) : (latchRequest rq s).scan = s.scan := rfl
@[simp] theorem latchRequest_krs (rq : SetupRequest) (s : State) : (latchRequest rq s).krs = s.krs := rfl
@[simp] theorem latchRequest_epSel (rq : SetupRequest) (s : State) : (latchRequest rq s).epSel = s.epSel := rfl
@[simp] theorem latchRequest_uaddr (rq : SetupRequest) (s : State) : (latchRequest rq s).uaddr = s.uaddr := rfl
@[simp] theorem latchRequest_adden (rq : SetupRequest) (s : State) : (latchRequest rq s).adden = s.adden := rfl
@[simp] theorem latchRequest_ep0 (rq : SetupRequest) (s : State) : (latchRequest rq s).ep0 = s.ep0 := rfl
@[simp] theorem latchRequest_kbd (rq : SetupRequest) (s : State) : (latchRequest rq s).kbd = s.kbd := rfl
@[simp] theorem latchRequest_pins (rq : SetupRequest) (s : State) : (latchRequest rq s).pins = s.pins := rfl
@[simp] theorem latchRequest_sw (rq : SetupRequest) (s : State) : (latchRequest rq s).sw = s.sw := rfl
@[simp] theorem latchRequest_hostTrace (rq : SetupRequest) (s : State) : (latchRequest rq s).hostTrace = s.hostTrace := rfl
@[simp] theorem latchRequest_par (rq : SetupRequest) (s : State) : (latchRequest rq s).par = s.par := rfl
@[simp] theorem latchRequest_sched (rq : SetupRequest) (s : State) : (latchRequest rq s).sched = s.sched := rfl
@[simp] theorem latchRequest_turn (rq : SetupRequest) (s : State) : (latchRequest rq s).turn = s.turn := rfl
@[simp] theorem latchRequest_cfgAnswers (rq : SetupRequest) (s : State) : (latchRequest rq s).cfgAnswers = s.cfgAnswers := rfl
@[simp] theorem latchRequest_draws (rq : SetupRequest) (s : State) : (latchRequest rq s).draws = s.draws := rfl
@[simp] theorem latchRequest_answer (rq : SetupRequest) (s : State) : (latchRequest rq s).answer = s.answer := rfl

/-! raiseStall -/

@[simp] theorem raiseStall_ctl (c : StallCause) (s : State) : (raiseStall c s).ctl = s.ctl := rfl
@[simp] theorem raiseStall_ev (c : StallCause) (s : State) : (raiseStall c s).ev = s.ev := rfl
@[simp] theorem raiseStall_disp (c : StallCause) (s : State) : (raiseStall c s).disp = s.disp := rfl
@[simp] theorem raiseStall_scan (c : StallCause) (s : State) : (raiseStall c s).scan = s.scan := rfl
@[simp] theorem raiseStall_krs (c : StallCause) (s : State) : (raiseStall c s).krs = s.krs := rfl
@[simp] theorem raiseStall_epSel (c : StallCause) (s : State) : (raiseStall c s).epSel = s.epSel := rfl
@[simp] theorem raiseStall_uaddr (c : StallCause) (s : State) : (raiseStall c s).uaddr = s.uaddr := rfl
@[simp] theorem raiseStall_adden (c : StallCause) (s : State) : (raiseStall c s).adden = s.adden := rfl
@[simp] theorem raiseStall_ep0 (c : StallCause) (s : State) : (raiseStall c s).ep0 = { s.ep0 with stallReq := true } := rfl
@[simp] theorem raiseStall_kbd (c : StallCause) (s : State) : (raiseStall c s).kbd = s.kbd := rfl
@[simp] theorem raiseStall_pins (c : StallCause) (s : State) : (raiseStall c s).pins = s.pins := rfl
@[simp] theorem raiseStall_sw (c : StallCause) (s : State) : (raiseStall c s).sw = s.sw := rfl
@[simp] theorem raiseStall_hostTrace (c : StallCause) (s : State) : (raiseStall c s).hostTrace = s.hostTrace := rfl
@[simp] theorem raiseStall_par (c : StallCause) (s : State) : (raiseStall c s).par = s.par := rfl
@[simp] theorem raiseStall_sched (c : StallCause) (s : State) : (raiseStall c s).sched = s.sched := rfl
@[simp] theorem raiseStall_turn (c : StallCause) (s : State) : (raiseStall c s).turn = s.turn := rfl
@[simp] theorem raiseStall_cfgAnswers (c : StallCause) (s : State) : (raiseStall c s).cfgAnswers = s.cfgAnswers := rfl
@[simp] theorem raiseStall_draws (c : StallCause) (s : State) : (raiseStall c s).draws = s.draws := rfl
@[simp] theorem raiseStall_answer (c : StallCause) (s : State) : (raiseStall c s).answer = s.answer := rfl

/-! configureEndpoint -/

@[simp] theorem configureEndpoint_ctl (e : EpNum) (s : State) : (configureEndpoint e s).ctl = s.ctl := by
  unfold configureEndpoint; dsimp only; split <;> rfl
@[simp] theorem configureEndpoint_ev (e : EpNum) (s : State) : (configureEndpoint e s).ev = s.ev := by
  unfold configureEndpoint; dsimp only; split <;> rfl
@[simp] theorem configureEndpoint_disp (e : EpNum) (s : State) : (configureEndpoint e s).disp = s.disp := by
  unfold configureEndpoint; dsimp only; split <;> rfl
@[simp] theorem configureEndpoint_scan (e : EpNum) (s : State) : (configureEndpoint e s).scan = s.scan := by
  unfold configureEndpoint; dsimp only; split <;> rfl
@[simp] theorem configureEndpoint_krs (e : EpNum) (s : State) : (configureEndpoint e s).krs = s.krs := by
  unfold configureEndpoint; dsimp only; split <;> rfl
@[simp] theorem configureEndpoint_epSel (e : EpNum) (s : State) : (configureEndpoint e s).epSel = Config.freeEpSel s.draws := by
  unfold configureEndpoint; dsimp only; split <;> rfl
@[simp] theorem configureEndpoint_uaddr (e : EpNum) (s : State) : (configureEndpoint e s).uaddr = s.uaddr := by
  unfold configureEndpoint; dsimp only; split <;> rfl
@[simp] theorem configureEndpoint_adden (e : EpNum) (s : State) : (configureEndpoint e s).adden = s.adden := by
  unfold configureEndpoint; dsimp only; split <;> rfl
@[simp] theorem configureEndpoint_pins (e : EpNum) (s : State) : (configureEndpoint e s).pins = s.pins := by
  unfold configureEndpoint; dsimp only; split <;> rfl
@[simp] theorem configureEndpoint_sw (e : EpNum) (s : State) : (configureEndpoint e s).sw = s.sw := by
  unfold configureEndpoint; dsimp only; split <;> rfl
@[simp] theorem configureEndpoint_hostTrace (e : EpNum) (s : State) : (configureEndpoint e s).hostTrace = s.hostTrace := by
  unfold configureEndpoint; dsimp only; split <;> rfl
@[simp] theorem configureEndpoint_par (e : EpNum) (s : State) : (configureEndpoint e s).par = s.par := by
  unfold configureEndpoint; dsimp only; split <;> rfl
@[simp] theorem configureEndpoint_sched (e : EpNum) (s : State) : (configureEndpoint e s).sched = s.sched := by
  unfold configureEndpoint; dsimp only; split <;> rfl
@[simp] theorem configureEndpoint_turn (e : EpNum) (s : State) : (configureEndpoint e s).turn = s.turn := by
  unfold configureEndpoint; dsimp only; split <;> rfl
@[simp] theorem configureEndpoint_cfgAnswers (e : EpNum) (s : State) : (configureEndpoint e s).cfgAnswers = s.cfgAnswers.tail := by
  unfold configureEndpoint; dsimp only; split <;> rfl
@[simp] theorem configureEndpoint_draws (e : EpNum) (s : State) : (configureEndpoint e s).draws = s.draws + 1 := by
  unfold configureEndpoint; dsimp only; split <;> rfl
@[simp] theorem configureEndpoint_answer (e : EpNum) (s : State) : (configureEndpoint e s).answer = s.answer := by
  unfold configureEndpoint; dsimp only; split <;> rfl
@[simp] theorem configureEndpoint_zero_ep0 (s : State) :
    (configureEndpoint 0#4 s).ep0 = configuredEp0 (cfgAnswer s) s.ep0 := rfl
@[simp] theorem configureEndpoint_zero_kbd (s : State) : (configureEndpoint 0#4 s).kbd = s.kbd := rfl
@[simp] theorem configureEndpoint_ep0 {e : EpNum} (h : e ≠ 0) (s : State) : (configureEndpoint e s).ep0 = s.ep0 := by
  unfold configureEndpoint; rw [if_neg h]; rfl
@[simp] theorem configureEndpoint_kbd {e : EpNum} (h : e ≠ 0) (s : State) :
    (configureEndpoint e s).kbd = configuredKbd (cfgAnswer s) s.kbd := by
  unfold configureEndpoint; rw [if_neg h]

end Sys2Proof.Machine
end

