-- ==== Sys2Proof/Laws/Ops.lean ====
section
/-! SUPPORT. What the shared operations can do: one lemma per operation, for the proofs to cite. -/

namespace Sys2Proof.Machine

/-! ## Outcomes -/

@[simp] theorem andThen_next (s : State) (k : State → Result) : andThen (.next s) k = k s := rfl
@[simp] theorem andThen_fault (f : Fault) (k : State → Result) : andThen (.fault f) k = .fault f := rfl
@[simp] theorem andThen_refused (r : Refusal) (k : State → Result) : andThen (.refused r) k = .refused r := rfl

/-- A sequence answers a next state only through a next state of its first part. -/
theorem andThen_eq_next {o : Result} {k : State → Result} {t : State} (h : andThen o k = .next t) :
    ∃ s, o = .next s ∧ k s = .next t := by
  cases o with
  | next s => exact ⟨s, rfl, h⟩
  | fault f => cases h
  | refused r => cases h

/-- A step on endpoint 0 runs when endpoint 0 is selected. -/
@[simp] theorem onEp0_selected {s : State} (h : s.epSel = 0) (k : State → Result) : onEp0 k s = k s := by
  simp [onEp0, h]

/-- A step on endpoint 0 answers a next state only with endpoint 0 selected. -/
theorem onEp0_eq_next {k : State → Result} {s t : State} (h : onEp0 k s = .next t) :
    s.epSel = 0 ∧ k s = .next t := by
  unfold onEp0 at h
  split at h
  · exact ⟨‹_›, h⟩
  · cases h

/-- A turn passes, or its step's own outcome stands. -/
theorem orPass_eq_next {s t : State} {o : Result} (h : orPass s o = .next t) : o = .next t ∨ t = s := by
  unfold orPass at h
  split at h
  · exact .inr (by simpa using h.symm)
  · exact .inr (by simpa using h.symm)
  · exact .inr (by simpa using h.symm)
  · exact .inl h
  · cases h
  · cases h

/-! ## FIFO writes -/

/-- One write to endpoint 0. -/
theorem fifoWrite_ep0 {s : State} (hsel : s.epSel = 0) (b : Byte) :
    fifoWrite b s = if s.ep0.fifo.length < Config.ep0Size then
      .next { s with ep0 := { s.ep0 with fifo := s.ep0.fifo ++ [b] } } else .fault .fifoOverrun := by
  simp only [fifoWrite, selectedFifo, selectedCapacity, setSelectedFifo, hsel, if_true]

/-- One write to the keyboard endpoint. -/
theorem fifoWrite_kbd {s : State} (hsel : s.epSel ≠ 0) (b : Byte) :
    fifoWrite b s = if s.kbd.fifo.length < Config.kbdReportLen then
      .next { s with kbd := { s.kbd with fifo := s.kbd.fifo ++ [b] } } else .fault .fifoOverrun := by
  simp only [fifoWrite, selectedFifo, selectedCapacity, setSelectedFifo, hsel, if_false]

/-- Writing bytes to endpoint 0: they are appended if they fit, and otherwise the write is a FIFO_OVERRUN. -/
theorem fifoWriteAll_ep0 (bs : List Byte) (s : State) (hsel : s.epSel = 0) (hfull : s.ep0.fifo.length ≤ Config.ep0Size) :
    fifoWriteAll bs s = if s.ep0.fifo.length + bs.length ≤ Config.ep0Size then
      .next { s with ep0 := { s.ep0 with fifo := s.ep0.fifo ++ bs } } else .fault .fifoOverrun := by
  induction bs generalizing s with
  | nil => simp only [fifoWriteAll, List.append_nil, List.length_nil, Nat.add_zero, hfull, if_true]
  | cons b bs ih =>
    rw [fifoWriteAll, fifoWrite_ep0 hsel]
    by_cases hlt : s.ep0.fifo.length < Config.ep0Size
    · rw [if_pos hlt, andThen_next, ih { s with ep0 := { s.ep0 with fifo := s.ep0.fifo ++ [b] } } hsel
        (by simp only [List.length_append, List.length_singleton]; omega)]
      simp only [List.length_append, List.length_cons, List.length_nil, List.append_assoc, List.cons_append,
        List.nil_append, Nat.zero_add, Nat.add_assoc, Nat.add_comm 1]
    · rw [if_neg hlt, andThen_fault, if_neg (by simp only [List.length_cons]; omega)]

/-- Writing bytes to the keyboard endpoint, likewise. -/
theorem fifoWriteAll_kbd (bs : List Byte) (s : State) (hsel : s.epSel ≠ 0)
    (hfull : s.kbd.fifo.length ≤ Config.kbdReportLen) :
    fifoWriteAll bs s = if s.kbd.fifo.length + bs.length ≤ Config.kbdReportLen then
      .next { s with kbd := { s.kbd with fifo := s.kbd.fifo ++ bs } } else .fault .fifoOverrun := by
  induction bs generalizing s with
  | nil => simp only [fifoWriteAll, List.append_nil, List.length_nil, Nat.add_zero, hfull, if_true]
  | cons b bs ih =>
    rw [fifoWriteAll, fifoWrite_kbd hsel]
    by_cases hlt : s.kbd.fifo.length < Config.kbdReportLen
    · rw [if_pos hlt, andThen_next, ih { s with kbd := { s.kbd with fifo := s.kbd.fifo ++ [b] } } hsel
        (by simp only [List.length_append, List.length_singleton]; omega)]
      simp only [List.length_append, List.length_cons, List.length_nil, List.append_assoc, List.cons_append,
        List.nil_append, Nat.zero_add, Nat.add_assoc, Nat.add_comm 1]
    · rw [if_neg hlt, andThen_fault, if_neg (by simp only [List.length_cons]; omega)]

/-- FIFO writes that answer a next state append to the FIFO of the selected endpoint and touch nothing else. -/
theorem fifoWriteAll_eq_next {bs : List Byte} {s t : State} (h : fifoWriteAll bs s = .next t) :
    t = if s.epSel = 0 then { s with ep0 := { s.ep0 with fifo := s.ep0.fifo ++ bs } }
        else { s with kbd := { s.kbd with fifo := s.kbd.fifo ++ bs } } := by
  induction bs generalizing s with
  | nil =>
    cases h
    by_cases hsel : t.epSel = 0
    · rw [if_pos hsel, List.append_nil]
    · rw [if_neg hsel, List.append_nil]
  | cons b bs ih =>
    obtain ⟨u, hu, ht⟩ := andThen_eq_next h
    by_cases hsel : s.epSel = 0
    · rw [fifoWrite_ep0 hsel] at hu
      split at hu
      · cases hu
        rw [ih ht, if_pos hsel, if_pos hsel, List.append_assoc]; rfl
      · cases hu
    · rw [fifoWrite_kbd hsel] at hu
      split at hu
      · cases hu
        rw [ih ht, if_neg hsel, if_neg hsel, List.append_assoc]; rfl
      · cases hu

/-! ## FIFO reads and the parse -/

/-- Reading endpoint 0's oldest byte. -/
theorem fifoRead_ep0 {s : State} {b : Byte} {rest : List Byte} (hsel : s.epSel = 0) (hf : s.ep0.fifo = b :: rest) :
    fifoRead s = (b, { s with ep0 := { s.ep0 with fifo := rest } }) := by
  simp only [fifoRead, selectedFifo, setSelectedFifo, hsel, hf, if_true]

/-- What reads of endpoint 0 leave: `n` bytes fewer in the FIFO, and some free values drawn. -/
abbrev AfterReads (n : Nat) (s t : State) : Prop :=
  ∃ draws, t = { s with ep0 := { s.ep0 with fifo := s.ep0.fifo.drop n }, draws := draws }

/-- A FIFO read touches only the selected FIFO and the count of draws. -/
theorem fifoRead_frame {n : Nat} {s t : State} (hsel : s.epSel = 0) (h : AfterReads n s t) :
    AfterReads (n + 1) s (fifoRead t).2 := by
  obtain ⟨draws, rfl⟩ := h
  obtain hf | ⟨b, rest, hf⟩ : s.ep0.fifo.drop n = [] ∨ ∃ b rest, s.ep0.fifo.drop n = b :: rest := by
    cases s.ep0.fifo.drop n <;> simp
  · refine ⟨draws + 1, ?_⟩
    rw [← List.drop_drop, hf]
    simp only [fifoRead, selectedFifo, hsel, if_true, nextDraw, List.drop_nil]
  · have hd : s.ep0.fifo.drop (n + 1) = rest := by rw [← List.drop_drop, hf]; rfl
    have e := fifoRead_ep0 (s := { s with ep0 := { s.ep0 with fifo := s.ep0.fifo.drop n }, draws := draws }) hsel hf
    exact ⟨draws, by rw [hd]; exact congrArg Prod.snd e⟩

/-- The parse of a whole packet (R182): the latch holds its fields and the FIFO is empty. -/
theorem parse_packet {s : State} {b0 b1 b2 b3 b4 b5 b6 b7 : Byte} (hsel : s.epSel = 0)
    (hf : s.ep0.fifo = [b0, b1, b2, b3, b4, b5, b6, b7]) :
    parse s = { s with
      ep0 := { s.ep0 with fifo := [] }, disp := { s.disp with rq := assemble b0 b1 b2 b3 b4 b5 b6 b7 } } := by
  simp only [parse, latchRequest, fifoRead, selectedFifo, setSelectedFifo, hsel, hf, if_true]

/-- The parse touches only the latch, `fifo0` and the count of draws. -/
theorem parse_frame (s : State) (hsel : s.epSel = 0) :
    ∃ draws rq, parse s = { s with
      ep0 := { s.ep0 with fifo := s.ep0.fifo.drop 8 }, draws := draws, disp := { s.disp with rq := rq } } := by
  obtain ⟨draws, h⟩ := fifoRead_frame hsel <| fifoRead_frame hsel <| fifoRead_frame hsel <| fifoRead_frame hsel <|
    fifoRead_frame hsel <| fifoRead_frame hsel <| fifoRead_frame hsel <|
    fifoRead_frame (n := 0) (t := s) hsel ⟨s.draws, rfl⟩
  exact ⟨draws, _, congrArg (latchRequest _) h⟩

/-! ## Grids -/

/-- Reading a cell after writing one. -/
theorem gridGet_gridSet {α : Type} (g : Grid α) (d v : α) {rows cols r c : Nat} (hg : Grid.Shaped g rows cols)
    (hr : r < rows) (hc : c < cols) (r' c' : Nat) :
    gridGet (gridSet g r c v) d r' c' = if r' = r ∧ c' = c then v else gridGet g d r' c' := by
  obtain ⟨hlen, hrow⟩ := hg
  have hr' : r < g.length := by omega
  have hrc : (g.getD r []).length = cols := by
    rw [List.getD_eq_getElem _ _ hr']; exact hrow _ (List.getElem_mem hr')
  have hset : ∀ row, (g.set r row).getD r' [] = if r' = r then row else g.getD r' [] := fun row => by
    simp only [List.getD_eq_getElem?_getD, List.getElem?_set, hr', if_true, eq_comm (a := r)]
    split <;> simp
  unfold gridGet gridSet
  rw [hset]
  by_cases h : r' = r
  · subst h
    by_cases h2 : c' = c
    · subst h2
      rw [if_pos rfl, if_pos ⟨rfl, rfl⟩, List.getD_eq_getElem _ _ (by rw [List.length_set]; omega),
        List.getElem_set_self]
    · simp [List.getD_eq_getElem?_getD, Ne.symm h2, h2]
  · simp [List.getD_eq_getElem?_getD, h]

/-- A write keeps the shape. -/
theorem gridSet_shaped {α : Type} {g : Grid α} {rows cols : Nat} (hg : Grid.Shaped g rows cols) (r c : Nat) (v : α) :
    Grid.Shaped (gridSet g r c v) rows cols := by
  obtain ⟨hlen, hrow⟩ := hg
  refine ⟨by simpa [gridSet] using hlen, fun row hmem => ?_⟩
  by_cases hr : r < g.length
  · rcases List.mem_or_eq_of_mem_set hmem with h | h
    · exact hrow _ h
    · rw [h, List.length_set, List.getD_eq_getElem _ _ hr]; exact hrow _ (List.getElem_mem hr)
  · rw [gridSet, List.set_eq_of_length_le (by omega)] at hmem; exact hrow _ hmem

/-- A write keeps a bound on the cells. -/
theorem gridSet_forall {α : Type} {g : Grid α} {P : α → Prop} (hg : ∀ row ∈ g, ∀ x ∈ row, P x) (r c : Nat) {v : α}
    (hv : P v) : ∀ row ∈ gridSet g r c v, ∀ x ∈ row, P x := by
  intro row hmem x hx
  by_cases hr : r < g.length
  · rcases List.mem_or_eq_of_mem_set hmem with h | h
    · exact hg _ h _ hx
    · rw [h, List.getD_eq_getElem _ _ hr] at hx
      rcases List.mem_or_eq_of_mem_set hx with h' | h'
      · exact hg _ (List.getElem_mem hr) _ h'
      · exact h' ▸ hv
  · rw [gridSet, List.set_eq_of_length_le (by omega)] at hmem; exact hg _ hmem _ hx

end Sys2Proof.Machine
end

