-- ==== Sys2Proof/Laws/Matrix.lean ====
section
/-! SUPPORT. What a visit of a row does (spec/46 R304, R305): the cells it filters and all it leaves alone. -/

namespace Sys2Proof.Machine

/-- The stored value and the count of a cell. -/
abbrev cellOf (s : State) (r c : Nat) : Bool × Nat := (gridGet s.scan.matrix false r c, gridGet s.scan.dbCnt 0 r c)

/-- The cell after a sample. -/
abbrev filteredCell (s : State) (r c : Nat) (sample : Bool) : Bool × Nat :=
  filtered s.par.debounceScans sample (cellOf s r c).1 (cellOf s r c).2

/-- Both arrays of the scanner have the sizes of the parameters. -/
abbrev ScanShaped (s : State) : Prop :=
  Grid.Shaped s.scan.matrix s.par.rows s.par.cols ∧ Grid.Shaped s.scan.dbCnt s.par.rows s.par.cols

/-- A debounced sample touches only the scanner's arrays and `scan_acc`. -/
theorem debounce_frame (r c : Nat) (x : Bool) (s : State) :
    debounce r c x s = { s with scan := { s.scan with
      matrix := (debounce r c x s).scan.matrix
      dbCnt := (debounce r c x s).scan.dbCnt
      scanAcc := (debounce r c x s).scan.scanAcc } } := by
  unfold debounce; dsimp only; split
  · rfl
  · split <;> rfl

theorem debounce_shaped {s : State} (h : ScanShaped s) (r c : Nat) (x : Bool) : ScanShaped (debounce r c x s) := by
  obtain ⟨hm, hd⟩ := h
  unfold debounce; dsimp only; split
  · exact ⟨hm, gridSet_shaped hd _ _ _⟩
  · split
    · exact ⟨gridSet_shaped hm _ _ _, gridSet_shaped hd _ _ _⟩
    · exact ⟨hm, gridSet_shaped hd _ _ _⟩

/-- A debounced sample filters its own cell and no other (R305). -/
theorem debounce_cell {s : State} (h : ScanShaped s) {r c : Nat} (hr : r < s.par.rows) (hc : c < s.par.cols) (x : Bool)
    (r' c' : Nat) :
    cellOf (debounce r c x s) r' c' = if r' = r ∧ c' = c then filteredCell s r c x else cellOf s r' c' := by
  obtain ⟨hm, hd⟩ := h
  unfold debounce filteredCell filtered; dsimp only
  split
  · rename_i he
    simp only [gridGet_gridSet _ _ _ hd hr hc, cellOf]
    split
    · rename_i hrc; rw [hrc.1, hrc.2]
    · rfl
  · split <;> simp only [gridGet_gridSet _ _ _ hd hr hc, gridGet_gridSet _ _ _ hm hr hc, cellOf] <;> split
    · rfl
    · rfl
    · rename_i hrc; rw [hrc.1, hrc.2]
    · rfl

/-- A debounced sample sets `scan_acc` exactly when its cell flips. -/
theorem debounce_acc (s : State) (r c : Nat) (x : Bool) :
    (debounce r c x s).scan.scanAcc = (s.scan.scanAcc || (filteredCell s r c x).1 != (cellOf s r c).1) := by
  unfold debounce filteredCell filtered; dsimp only
  split
  · simp
  · split
    · rename_i h _; simp [h]
    · simp

/-- The samples of the columns `cs` of row r, taken on the state `s`, led to `t`. -/
structure Visited (r : Nat) (sample : Nat → Bool) (cs : List Nat) (s t : State) : Prop where
  frame : t = { s with scan := { s.scan with
    matrix := t.scan.matrix, dbCnt := t.scan.dbCnt, scanAcc := t.scan.scanAcc } }
  shaped : ScanShaped t
  cells : ∀ r' c', cellOf t r' c' = if r' = r ∧ c' ∈ cs then filteredCell s r c' (sample c') else cellOf s r' c'
  acc : t.scan.scanAcc = (s.scan.scanAcc || cs.any fun c => (filteredCell s r c (sample c)).1 != (cellOf s r c).1)

theorem visited_nil {r : Nat} {sample : Nat → Bool} {s : State} (h : ScanShaped s) : Visited r sample [] s s :=
  ⟨rfl, h, fun r' c' => by simp, by simp⟩

theorem visited_snoc {r : Nat} {sample : Nat → Bool} {cs : List Nat} {s t : State} (h : Visited r sample cs s t) {c : Nat}
    (hnew : c ∉ cs) (hr : r < s.par.rows) (hc : c < s.par.cols) :
    Visited r sample (cs ++ [c]) s (debounce r c (sample c) t) := by
  obtain ⟨hf, hs, hcell, hacc⟩ := h
  have hpar : t.par = s.par := by rw [hf]
  have hold : cellOf t r c = cellOf s r c := by rw [hcell, if_neg (fun h => hnew h.2)]
  have hnewCell : filteredCell t r c (sample c) = filteredCell s r c (sample c) := by
    unfold filteredCell; rw [hpar, hold]
  refine ⟨?_, debounce_shaped hs _ _ _, fun r' c' => ?_, ?_⟩
  · rw [debounce_frame]
    generalize debounce r c (sample c) t = u
    rw [hf]
  · rw [debounce_cell hs (hpar ▸ hr) (hpar ▸ hc), hnewCell, hcell]
    by_cases h1 : r' = r
    · by_cases h2 : c' = c
      · simp [h1, h2]
      · simp [h1, h2]
    · simp [h1]
  · rw [debounce_acc, hnewCell, hold, hacc, List.any_append]
    simp [Bool.or_assoc]

/-- The columns below `n` visited in ascending order. -/
theorem visited_range {r n : Nat} {sample : Nat → Bool} {s : State} (hs : ScanShaped s) (hr : r < s.par.rows)
    (hn : n ≤ s.par.cols) (hsample : ∀ c t, t.pins = s.pins → t.sw = s.sw → t.par = s.par →
      (readLevel t c == t.par.activeLevel) = sample c) :
    Visited r sample (List.range n) s ((List.range n).foldl (scanCell r) s) := by
  induction n with
  | zero => exact visited_nil hs
  | succ n ih =>
    have ih := ih (by omega)
    rw [List.range_succ, List.foldl_append, List.foldl_cons, List.foldl_nil]
    have h := visited_snoc ih (c := n) (by simp) hr (by omega)
    rw [scanCell, hsample n _ (by rw [ih.frame]) (by rw [ih.frame]) (by rw [ih.frame])]
    exact h

/-- The row's cells are sampled as the switches are while only that row is driven (R54, R304). -/
theorem readLevel_driven {s : State} {r : Nat} (hr : r < s.par.rows)
    (hdir : s.pins.rowDir = (List.replicate s.par.rows false).set r true)
    (hlvl : s.pins.rowLvl[r]? = some s.par.activeLevel) (c : Nat) :
    (readLevel s c == s.par.activeLevel) = gridGet s.sw false r c := by
  have hd : ∀ q, rowDriven s q = decide (q = r) := fun q => by
    by_cases hq : q = r
    · subst hq; simp [rowDriven, hdir, List.getD_eq_getElem?_getD, hlvl, hr]
    · simp [rowDriven, hdir, List.getD_eq_getElem?_getD, Ne.symm hq, hq, List.getElem?_replicate]
      intro h; split at h <;> simp at h
  have hany : ((List.range s.par.rows).any fun q => rowDriven s q && gridGet s.sw false q c) = gridGet s.sw false r c := by
    rw [Bool.eq_iff_iff]
    simp only [List.any_eq_true, List.mem_range, Bool.and_eq_true, hd, decide_eq_true_eq]
    exact ⟨fun ⟨q, _, h, h'⟩ => h ▸ h', fun h => ⟨r, hr, rfl, h⟩⟩
  unfold readLevel
  rw [hany]
  cases gridGet s.sw false r c <;> simp

/-- What a visit of row r does: every cell of the row filtered, the row's level left active, all rows inputs. -/
theorem sampleRow_spec {s : State} {r : Nat} (hs : ScanShaped s) (hr : r < s.par.rows)
    (hdir : s.pins.rowDir = List.replicate s.par.rows false) (hlvl : s.pins.rowLvl.length = s.par.rows) :
    ∃ t, Visited r (fun c => gridGet s.sw false r c) (List.range s.par.cols) s t ∧
      sampleRow r s = { t with pins := { s.pins with rowLvl := s.pins.rowLvl.set r s.par.activeLevel } } := by
  have h := visited_range (s := setLevel r s.par.activeLevel (setDirection r true s)) (n := s.par.cols) hs hr
    (Nat.le_refl _) (sample := fun c => gridGet s.sw false r c) (fun c t h1 h2 h3 => by
      rw [readLevel_driven (r := r) (by rw [h3]; exact hr) (by rw [h1, h3]; simp [hdir])
        (by rw [h1, h3]; simp [hlvl, hr]), h2]; simp)
  generalize hu : (List.range s.par.cols).foldl (scanCell r) (setLevel r s.par.activeLevel (setDirection r true s)) = u at h
  obtain ⟨hf, hsh, hc, ha⟩ := h
  refine ⟨{ u with pins := s.pins }, ⟨?_, ?_, hc, ha⟩, ?_⟩
  · rw [hf]; rfl
  · exact hsh
  · unfold sampleRow; dsimp only
    rw [hu]
    have : (s.pins.rowDir.set r true).set r false = s.pins.rowDir := by
      rw [hdir, List.set_set]; apply List.ext_getElem? ; intro i
      simp only [List.getElem?_set, List.getElem?_replicate, List.length_replicate]
      split
      · rename_i h; rw [← h]; simp [hr]
      · rfl
    rw [hf]
    simp only [setDirection, setLevel, this]

end Sys2Proof.Machine
end

