-- ==== Sys2Proof/Laws/Steps.lean ====
section
/-! SUPPORT. What each step of the block can do: from `exec i s = .next t`, when it was enabled and which state `t`
is. -/

namespace Sys2Proof.Machine

/-! ## Requests -/

/-- A request's handler runs only where the entry step starts it. -/
theorem startRequest_eq_next {body : State → State} {s t : State} (h : startRequest body s = .next t) :
    HandlerStarts s ∧ t = body s := by
  unfold startRequest at h
  split at h
  · rename_i hp
    obtain ⟨hsel, h⟩ := onEp0_eq_next h
    exact ⟨⟨hp.1, hp.2, hsel⟩, by cases h; rfl⟩
  · cases h

/-- The handler runs where the entry step starts it. -/
theorem startRequest_next {s : State} (h : HandlerStarts s) (body : State → State) :
    startRequest body s = .next (body s) := by
  unfold startRequest
  rw [if_pos ⟨h.1, h.2.1⟩, onEp0_selected h.2.2]

/-- The registers a handler leaves for the phase it starts (R189). -/
def Started (s : State) (d : Dispatcher) : Prop :=
  match d.dphase with
  | .idle => True
  | .fxTx => 1 ≤ d.fx.length ∧ d.fx.length ≤ 2
  | .inLoop => d.xfPtr = 0 ∧ d.xfRem.toNat ≤ sourceLen s d.xfSrc ∧ d.xfRem ≠ 0
  | .stOut => True
  | .stIn => Latched d.post
  | .addrAck => False
  | .outDrain => d.xfRem ≠ 0

/-- What any request's handler can do: it consumes the SETUP and writes dispatcher registers other than the latch; only
an unmatched one stalls. -/
structure Handled (s t : State) : Prop where
  starts : HandlerStarts s
  frame : ∃ stalled, t = { s with ep0 := { consumed s.ep0 with stallReq := stalled }, disp := t.disp }
  latch : t.disp.rq = s.disp.rq
  started : Started s t.disp

theorem idleUnits_idleTicks (v : Word16) : IdleUnits (idleTicks v) := by
  have h : (idleTicks v).toNat = 4 * (v.toNat / 256 % 256) := by
    simp only [idleTicks, hiByte, BitVec.toNat_shiftLeft, BitVec.toNat_setWidth, BitVec.extractLsb'_toNat,
      Nat.shiftRight_eq_div_pow, Nat.shiftLeft_eq]
    omega
  unfold IdleUnits
  omega

theorem latched_cfg {v : Word16} (h : configRejected v = false) : Latched (.cfg (loByte v)) := by
  have h1 : v.toNat ≤ 1 := by simpa [configRejected] using h
  have h2 : (loByte v).toNat = v.toNat := by
    simp only [loByte, BitVec.extractLsb'_toNat, Nat.shiftRight_zero]; omega
  unfold Latched
  rcases Nat.le_one_iff_eq_zero_or_eq_one.mp h1 with h | h
  · exact .inl (BitVec.eq_of_toNat_eq (by rw [h2, h]; rfl))
  · exact .inr (BitVec.eq_of_toNat_eq (by rw [h2, h]; rfl))

theorem ackH2D_handled {s : State} (h : HandlerStarts s) {p : PostEffect} (hp : Latched p) : Handled s (ackH2D p s) :=
  ⟨h, ⟨s.ep0.stallReq, rfl⟩, rfl, hp⟩

theorem replyFixed_handled {s : State} (h : HandlerStarts s) {bs : List Byte} (h1 : 1 ≤ bs.length) (h2 : bs.length ≤ 2) :
    Handled s (replyFixed bs s) :=
  ⟨h, ⟨s.ep0.stallReq, rfl⟩, rfl, ⟨h1, h2⟩⟩

theorem ignoreRequest_handled {s : State} (h : HandlerStarts s) : Handled s (ignoreRequest s) :=
  ⟨h, ⟨s.ep0.stallReq, rfl⟩, rfl, trivial⟩

theorem ctrlIn_handled {s : State} (h : HandlerStarts s) (src : XferSource) (l : Word16) :
    Handled s (ctrlIn src l s) := by
  refine ⟨h, ⟨s.ep0.stallReq, rfl⟩, rfl, ?_⟩
  simp only [ctrlIn, Started]
  have hl := l.isLt
  have hle : (servedLen l (sourceLen s src)).toNat ≤ sourceLen s src := by
    simp only [servedLen, BitVec.toNat_ofNat]; omega
  by_cases h0 : servedLen l (sourceLen s src) = 0
  · rw [if_pos h0]; trivial
  · rw [if_neg h0]; exact ⟨trivial, hle, h0⟩

theorem drainReport_handled {s : State} (h : HandlerStarts s) (l : Word16) : Handled s (drainReport l s) := by
  unfold drainReport
  by_cases hl : l = 0
  · rw [if_pos hl]; exact ackH2D_handled h trivial
  · rw [if_neg hl]; exact ⟨h, ⟨s.ep0.stallReq, rfl⟩, rfl, hl⟩

/-- What any request can do. -/
theorem request_eq_next {i : Instr} (hi : i.isRequest = true) {s t : State} (h : exec i s = .next t) : Handled s t := by
  cases i <;> first | (cases hi; done) | skip
  all_goals obtain ⟨hs, rfl⟩ := startRequest_eq_next h
  all_goals first
    | exact ackH2D_handled hs trivial
    | exact ackH2D_handled hs (idleUnits_idleTicks _)
    | exact replyFixed_handled hs (by decide) (by decide)
    | exact replyFixed_handled hs (by simp) (by simp)
    | exact ctrlIn_handled hs _ _
    | exact drainReport_handled hs _
    | exact ignoreRequest_handled hs
    | exact ⟨hs, ⟨true, rfl⟩, rfl, by simp only [raiseStall_disp, clearSetupFlag_disp, Started, hs.1]⟩
    | skip
  · split
    · exact ignoreRequest_handled hs
    · exact replyFixed_handled hs (by simp) (by simp)
  · split
    · exact ignoreRequest_handled hs
    · rename_i hv; exact ackH2D_handled hs (latched_cfg (by simpa using hv))

/-- A request runs to its first wait wherever the entry step starts it (R180). -/
theorem request_completes {i : Instr} (hi : i.isRequest = true) {s : State} (hs : HandlerStarts s) :
    ∃ t, exec i s = .next t := by
  cases i <;> first | (cases hi; done) | exact ⟨_, startRequest_next hs _⟩

/-- The decoder gives requests only (R109). -/
theorem decodeRequest_isRequest (r : SetupRequest) : (decodeRequest r).isRequest = true := by
  have hrow : ∀ itf, (descriptorRow itf r).isRequest = true := fun itf => by
    unfold descriptorRow
    repeat' split
    all_goals rfl
  have hite : ∀ {c : Prop} [Decidable c] {a : Instr} {o : Option Instr}, a.isRequest = true →
      (∀ i, o = some i → i.isRequest = true) → ∀ i, (if c then some a else o) = some i → i.isRequest = true := by
    intro c _ a o ha ho i hi
    split at hi
    · cases hi; exact ha
    · exact ho i hi
  have hc : ∀ i, classLookup r = some i → i.isRequest = true := by
    unfold classLookup
    iterate 6 refine hite rfl ?_
    simp
  have hs : ∀ i, standardLookup r = some i → i.isRequest = true := by
    unfold standardLookup
    iterate 17 refine hite (by first | rfl | exact hrow _) ?_
    simp
  unfold decodeRequest
  split
  · exact hc _ ‹_›
  · split
    · exact hs _ ‹_›
    · rfl

/-- The dispatcher's handler of a request is its meaning. -/
theorem runHandler_eq_exec {i : Instr} (h : i.isRequest = true) (s : State) : runHandler i s = exec i s := by
  cases i <;> first | rfl | cases h

/-! ## The entry step and the handlers -/

/-- What the entry step can do: a spurious event stalls; a pending packet is latched and read, and its handler
runs. -/
theorem comm_eq_next {s t : State} (h : exec .comm s = .next t) :
    CommEnabled s ∧
    ((s.ep0.setupPend = false ∧ t = raiseStall .spurious (selectEndpoint 0 (takeEvent .comm s))) ∨
      ∃ draws rq, Handled { s with
        ev := { s.ev with commPend := false }, epSel := 0, ep0 := { s.ep0 with fifo := s.ep0.fifo.drop 8 },
        draws := draws, disp := { s.disp with rq := rq } } t) := by
  change execComm s = _ at h
  unfold execComm at h
  split at h
  · rename_i hen
    refine ⟨hen, ?_⟩
    dsimp only at h
    split at h
    · obtain ⟨d, rq, hp⟩ := parse_frame (selectEndpoint 0 (takeEvent .comm s)) rfl
      rw [runHandler_eq_exec (decodeRequest_isRequest _)] at h
      have := request_eq_next (decodeRequest_isRequest _) h
      rw [hp] at this
      exact .inr ⟨d, rq, this⟩
    · rename_i hs
      cases h
      exact .inl ⟨by simpa [isSetupPending] using hs, rfl⟩
  · cases h

theorem eor_eq_next {s t : State} (h : exec .eor s = .next t) :
    EorEnabled s ∧ t = { configureEndpoint 0 (selectEndpoint 0 (takeEvent .eor s)) with
      ctl := { s.ctl with enumState := .default } } := by
  change execEor s = _ at h
  unfold execEor at h
  split at h
  · rename_i hen; exact ⟨hen, by cases h; rfl⟩
  · cases h

theorem sof_eq_next {s t : State} (h : exec .sof s = .next t) :
    SofEnabled s ∧ t = { s with
      ev := { s.ev with sofPend := false }
      ctl := { s.ctl with idleRemaining := countDown s.ctl.idleRemaining } } := by
  change execSof s = _ at h
  unfold execSof at h
  split at h
  · rename_i hen; exact ⟨hen, by cases h; rfl⟩
  · cases h

/-! ## The phases -/

theorem pFxTx_eq_next {s t : State} (h : exec .pFxTx s = .next t) :
    SendPhaseEnabled .fxTx s ∧ s.epSel = 0 ∧ t = { s with
      ep0 := { committed s.ep0 with inPkt := some (s.ep0.fifo ++ s.disp.fx) }
      disp := { s.disp with dphase := .stOut } } := by
  change execPFxTx s = _ at h
  unfold execPFxTx at h
  split at h
  · rename_i hen
    obtain ⟨hsel, h⟩ := onEp0_eq_next h
    obtain ⟨u, hu, h⟩ := andThen_eq_next h
    have hu := fifoWriteAll_eq_next hu
    rw [if_pos hsel] at hu
    subst hu
    exact ⟨hen, hsel, by cases h; rfl⟩
  · cases h

theorem sendChunk_eq_next {s t : State} (hsel : s.epSel = 0) (h : sendChunk s = .next t) :
    ∃ bytes, memRead (sourceBytes s s.disp.xfSrc) s.disp.xfPtr.toNat (min s.disp.xfRem.toNat Config.ep0Size) = some bytes ∧
      t = { s with
        ep0 := { committed s.ep0 with inPkt := some (s.ep0.fifo ++ bytes) }
        disp := advanceXfer (min s.disp.xfRem.toNat Config.ep0Size) s.disp } := by
  unfold sendChunk at h
  dsimp only at h
  split at h
  · cases h
  · rename_i bytes hb
    obtain ⟨u, hu, h⟩ := andThen_eq_next h
    have hu := fifoWriteAll_eq_next hu
    rw [if_pos hsel] at hu
    subst hu
    exact ⟨bytes, hb, by cases h; rfl⟩

theorem pInLoop_eq_next {s t : State} (h : exec .pInLoop s = .next t) :
    InLoopEnabled s ∧ s.epSel = 0 ∧
    ((s.ep0.setupPend = true ∧ t = endDispatch s) ∨
      (s.ep0.setupPend = false ∧ s.ep0.rxPend = true ∧ t = setPhase .stOut s) ∨
      (s.ep0.setupPend = false ∧ s.ep0.rxPend = false ∧ s.ep0.txReady = true ∧ sendChunk s = .next t)) := by
  change execPInLoop s = _ at h
  unfold execPInLoop at h
  split at h
  · rename_i hen
    obtain ⟨hsel, h⟩ := onEp0_eq_next h
    refine ⟨hen, hsel, ?_⟩
    split at h
    · rename_i h1; exact .inl ⟨h1, by cases h; rfl⟩
    · rename_i h1
      have h1 : s.ep0.setupPend = false := by simpa [isSetupPending] using h1
      split at h
      · rename_i h2; exact .inr (.inl ⟨h1, h2, by cases h; rfl⟩)
      · rename_i h2
        have h2 : s.ep0.rxPend = false := by simpa [isReceivePending] using h2
        refine .inr (.inr ⟨h1, h2, ?_, h⟩)
        rcases hen.2 with h' | h' | h'
        · exact h'
        · exact absurd (show s.ep0.rxPend = true from h') (by simp [h2])
        · exact absurd (show s.ep0.setupPend = true from h') (by simp [h1])
  · cases h

theorem pStOut_eq_next {s t : State} (h : exec .pStOut s = .next t) :
    StOutEnabled s ∧ s.epSel = 0 ∧ t = endDispatch (clearReceiveFlag s) := by
  change execPStOut s = _ at h
  unfold execPStOut at h
  split at h
  · rename_i hen
    obtain ⟨hsel, h⟩ := onEp0_eq_next h
    exact ⟨hen, hsel, by cases h; rfl⟩
  · cases h

theorem pStIn_eq_next {s t : State} (h : exec .pStIn s = .next t) :
    SendPhaseEnabled .stIn s ∧ s.epSel = 0 ∧ t = applyPost (clearSendFlag s) := by
  change execPStIn s = _ at h
  unfold execPStIn at h
  split at h
  · rename_i hen
    obtain ⟨hsel, h⟩ := onEp0_eq_next h
    exact ⟨hen, hsel, by cases h; rfl⟩
  · cases h

theorem pAddrAck_eq_next {s t : State} (h : exec .pAddrAck s = .next t) :
    SendPhaseEnabled .addrAck s ∧ s.epSel = 0 ∧ ∃ a, s.disp.post = .addr a ∧ t = { s with
      uaddr := a, adden := true, hostTrace := s.hostTrace ++ [.addr a]
      ctl := { s.ctl with enumState := .addressed }, disp := { s.disp with dphase := .idle } } := by
  change execPAddrAck s = _ at h
  unfold execPAddrAck at h
  split at h
  · rename_i hen
    obtain ⟨hsel, h⟩ := onEp0_eq_next h
    refine ⟨hen, hsel, ?_⟩
    split at h
    · rename_i a ha; exact ⟨a, ha, by cases h; rfl⟩
    all_goals cases h
  · cases h

theorem pOutDrain_eq_next {s t : State} (h : exec .pOutDrain s = .next t) :
    OutDrainEnabled s ∧ s.epSel = 0 ∧
    ((s.ep0.setupPend = true ∧ t = endDispatch s) ∨
      (s.ep0.setupPend = false ∧ s.ep0.rxPend = true ∧ t = drainPacket s)) := by
  change execPOutDrain s = _ at h
  unfold execPOutDrain at h
  split at h
  · rename_i hen
    obtain ⟨hsel, h⟩ := onEp0_eq_next h
    refine ⟨hen, hsel, ?_⟩
    split at h
    · rename_i h1; exact .inl ⟨h1, by cases h; rfl⟩
    · rename_i h1
      have h1 : s.ep0.setupPend = false := by simpa [isSetupPending] using h1
      refine .inr ⟨h1, ?_, by cases h; rfl⟩
      rcases hen.2 with h' | h'
      · exact h'
      · exact absurd (show s.ep0.setupPend = true from h') (by simp [h1])
  · cases h

/-! ## The main loop -/

theorem scanRow_eq_next {s t : State} (h : exec .scanRow s = .next t) :
    MainEnabled .scan s ∧
    t = if s.scan.scanRow + 1 = s.par.rows then endOfScan (sampleRow s.scan.scanRow s)
        else { sampleRow s.scan.scanRow s with
          scan := { (sampleRow s.scan.scanRow s).scan with scanRow := s.scan.scanRow + 1 } } := by
  change execScanRow s = _ at h
  unfold execScanRow at h
  split at h
  · rename_i hen; exact ⟨hen, by cases h; rfl⟩
  · cases h

theorem getState_eq_next {s t : State} (h : exec .getState s = .next t) :
    MainEnabled .state s ∧ t = { s with krs := reportState s, scan := { s.scan with mphase := .send } } := by
  change execGetState s = _ at h
  unfold execGetState at h
  split at h
  · rename_i hen; exact ⟨hen, by cases h; rfl⟩
  · cases h

theorem reportSend_eq_next {s t : State} (h : exec .reportSend s = .next t) :
    MainEnabled .send s ∧ ∃ u, trySend s = .next u ∧ t = restartScan u := by
  change execReportSend s = _ at h
  unfold execReportSend at h
  split at h
  · rename_i hen
    obtain ⟨u, hu, h⟩ := andThen_eq_next h
    exact ⟨hen, u, hu, by cases h; rfl⟩
  · cases h

/-- What the send can do: nothing, select the busy endpoint, or commit the report and reload the countdown. -/
theorem trySend_eq_next {s t : State} (hk : s.par.kbdEp ≠ 0) (h : trySend s = .next t) :
    (¬ SendDue s ∧ t = s) ∨
    (SendDue s ∧ kbdReady s = false ∧ t = selectEndpoint s.par.kbdEp s) ∨
    (SendDue s ∧ kbdReady s = true ∧ t = { s with
      epSel := s.par.kbdEp
      kbd := { s.kbd with inPkt := some (s.kbd.fifo ++ reportBytes s.krs), fifo := [], rwal := false }
      ctl := { s.ctl with idleRemaining := s.ctl.idleDuration } }) := by
  unfold trySend at h
  split at h
  · rename_i hdue
    dsimp only at h
    split at h
    · rename_i hr
      obtain ⟨u, hu, h⟩ := andThen_eq_next h
      have hu := fifoWriteAll_eq_next hu
      rw [if_neg (show (selectEndpoint s.par.kbdEp s).epSel ≠ 0 from hk)] at hu
      subst hu
      exact .inr (.inr ⟨hdue, hr, by cases h; rfl⟩)
    · rename_i hr
      exact .inr (.inl ⟨hdue, by simpa [kbdReady] using hr, by cases h; rfl⟩)
  · rename_i hdue; exact .inl ⟨hdue, by cases h; rfl⟩

/-! ## The environment and the primitives -/

/-- The moves of the environment change no block state but the event latches (R163 to R168), and neither do the
primitives (R142 to R156, R301). -/
theorem outside_eq_next {i : Instr} (hi : i.format = .envMove ∨ i.format = .primitive) {s t : State}
    (h : exec i s = .next t) :
    t.ctl = s.ctl ∧ t.disp = s.disp ∧ t.scan = s.scan ∧ t.krs = s.krs ∧ t.par = s.par := by
  cases i <;> first | (simp [Instr.format] at hi; done) | skip
  case hostSetup b =>
    change execHostSetup b s = _ at h
    unfold execHostSetup at h
    split at h
    · split at h
      · cases h; exact ⟨rfl, rfl, rfl, rfl, rfl⟩
      · cases h
    · cases h
  case hostIn0 =>
    change execHostIn0 s = _ at h
    unfold execHostIn0 at h
    split at h
    · split at h
      · cases h; exact ⟨rfl, rfl, rfl, rfl, rfl⟩
      · cases h
    · cases h
  case hostOut p =>
    change execHostOut p s = _ at h
    unfold execHostOut at h
    split at h
    · split at h
      · cases h; exact ⟨rfl, rfl, rfl, rfl, rfl⟩
      · cases h
    · cases h
  case busReset => cases h; exact ⟨rfl, rfl, rfl, rfl, rfl⟩
  case sofTick => cases h; exact ⟨rfl, rfl, rfl, rfl, rfl⟩
  case spuriousComm => cases h; exact ⟨rfl, rfl, rfl, rfl, rfl⟩
  case hostInk =>
    change execHostInk s = _ at h
    unfold execHostInk at h
    split at h
    · split at h
      · cases h; exact ⟨rfl, rfl, rfl, rfl, rfl⟩
      · cases h
    · cases h
  case keys r c v =>
    change execKeys r c v s = _ at h
    unfold execKeys at h
    split at h
    · cases h; exact ⟨rfl, rfl, rfl, rfl, rfl⟩
    · cases h
  case hostStalled =>
    change execHostStalled s = _ at h
    unfold execHostStalled at h
    split at h
    · cases h; exact ⟨rfl, rfl, rfl, rfl, rfl⟩
    · cases h
  case selectEndpoint n => cases h; exact ⟨rfl, rfl, rfl, rfl, rfl⟩
  case isSetupPending => change execIsSetupPending s = _ at h; unfold execIsSetupPending at h; obtain ⟨-, h⟩ := onEp0_eq_next h; cases h; exact ⟨rfl, rfl, rfl, rfl, rfl⟩
  case isSendReady => change execIsSendReady s = _ at h; unfold execIsSendReady at h; obtain ⟨-, h⟩ := onEp0_eq_next h; cases h; exact ⟨rfl, rfl, rfl, rfl, rfl⟩
  case isReceivePending => change execIsReceivePending s = _ at h; unfold execIsReceivePending at h; obtain ⟨-, h⟩ := onEp0_eq_next h; cases h; exact ⟨rfl, rfl, rfl, rfl, rfl⟩
  case fifoRead =>
    change execFifoRead s = _ at h
    unfold execFifoRead onFifo at h
    split at h
    · cases h
      simp only [fifoRead, setSelectedFifo, nextDraw]
      split
      · split <;> exact ⟨rfl, rfl, rfl, rfl, rfl⟩
      · exact ⟨rfl, rfl, rfl, rfl, rfl⟩
    · cases h
  case fifoWrite b =>
    change execFifoWrite b s = _ at h
    unfold execFifoWrite onFifo at h
    split at h
    · unfold fifoWrite at h
      split at h
      · cases h
        unfold setSelectedFifo
        split <;> exact ⟨rfl, rfl, rfl, rfl, rfl⟩
      · cases h
    · cases h
  case clearSetupFlag => change execClearSetupFlag s = _ at h; unfold execClearSetupFlag at h; obtain ⟨-, h⟩ := onEp0_eq_next h; cases h; exact ⟨rfl, rfl, rfl, rfl, rfl⟩
  case clearSendFlag => change execClearSendFlag s = _ at h; unfold execClearSendFlag at h; obtain ⟨-, h⟩ := onEp0_eq_next h; cases h; exact ⟨rfl, rfl, rfl, rfl, rfl⟩
  case clearReceiveFlag => change execClearReceiveFlag s = _ at h; unfold execClearReceiveFlag at h; obtain ⟨-, h⟩ := onEp0_eq_next h; cases h; exact ⟨rfl, rfl, rfl, rfl, rfl⟩
  case stall => change execStall s = _ at h; unfold execStall at h; obtain ⟨-, h⟩ := onEp0_eq_next h; cases h; exact ⟨rfl, rfl, rfl, rfl, rfl⟩
  case syncStatusStage dir =>
    change execSyncStatusStage dir s = _ at h
    unfold execSyncStatusStage at h
    obtain ⟨-, h⟩ := onEp0_eq_next h
    cases dir <;> dsimp only at h <;> split at h <;> first | (cases h; done) | (cases h; exact ⟨rfl, rfl, rfl, rfl, rfl⟩)
  case writeAddress a => cases h; exact ⟨rfl, rfl, rfl, rfl, rfl⟩
  case configureEndpoint e =>
    change execConfigureEndpoint e s = _ at h
    unfold execConfigureEndpoint at h
    split at h
    · cases h; simp
    · cases h
  case kbdReady =>
    change execKbdReady s = _ at h
    unfold execKbdReady onKbdEp at h
    split at h
    · cases h; exact ⟨rfl, rfl, rfl, rfl, rfl⟩
    · cases h
  case kbdRearm =>
    change execKbdRearm s = _ at h
    unfold execKbdRearm onKbdEp at h
    split at h
    · cases h; exact ⟨rfl, rfl, rfl, rfl, rfl⟩
    · cases h
  case setDirectionSetLevelReadLevel op =>
    change execPinOp op s = _ at h
    unfold execPinOp at h
    cases op <;> dsimp only at h <;> split at h <;> first | (cases h; done) | (cases h; exact ⟨rfl, rfl, rfl, rfl, rfl⟩)

/-! ## The step -/

/-- A step is the placed or free move's own outcome, or a turn that passes. -/
theorem step_eq_next {s t : State} (h : step s = .next t) :
    (exec (nextMove s) (passTurn s) = .next t ∧ (nextMove s).isAgentStep = true) ∨ t = passTurn s := by
  unfold step at h
  dsimp only at h
  split at h
  · rename_i ha
    rcases orPass_eq_next h with h | h
    · exact .inl ⟨h, ha⟩
    · exact .inr h
  · exact .inr (by cases h; rfl)

end Sys2Proof.Machine
end

