-- ==== Sys2Proof/Laws/Frames.lean ====
section
/-! SUPPORT. What each step leaves alone, and the shape of what it writes to the shared control registers. -/

namespace Sys2Proof.Machine

/-- What the scanner, a request and the dispatcher's waits leave alone. -/
structure SameOutside (s t : State) : Prop where
  ctl : t.ctl = s.ctl
  par : t.par = s.par
  uaddr : t.uaddr = s.uaddr
  adden : t.adden = s.adden
  sw : t.sw = s.sw
  krs : t.krs = s.krs
  kbd : t.kbd = s.kbd

/-- Besides `SameOutside`: the scanner alone moves. -/
structure SameButScanner (s t : State) : Prop extends SameOutside s t where
  disp : t.disp = s.disp
  ev : t.ev = s.ev
  epSel : t.epSel = s.epSel
  ep0 : t.ep0 = s.ep0

/-- A visit of a row touches the scanner and the pins only (R304). -/
theorem sampleRow_frame (r : Nat) (s : State) : SameButScanner s (sampleRow r s) := by
  have h : ∀ (cs : List Nat) (u : State), SameButScanner u (cs.foldl (scanCell r) u) := by
    intro cs
    induction cs with
    | nil => exact fun u => ⟨⟨rfl, rfl, rfl, rfl, rfl, rfl, rfl⟩, rfl, rfl, rfl, rfl⟩
    | cons c cs ih =>
      intro u
      obtain ⟨⟨h1, h2, h3, h4, h5, h6, h7⟩, h8, h9, h10, h11⟩ := ih (scanCell r u c)
      have hf := debounce_frame r c (readLevel u c == u.par.activeLevel) u
      rw [List.foldl_cons]
      unfold scanCell at *
      rw [hf] at h1 h2 h3 h4 h5 h6 h7 h8 h9 h10 h11 ⊢
      exact ⟨⟨h1, h2, h3, h4, h5, h6, h7⟩, h8, h9, h10, h11⟩
  obtain ⟨⟨h1, h2, h3, h4, h5, h6, h7⟩, h8, h9, h10, h11⟩ :=
    h (List.range s.par.cols) (setLevel r s.par.activeLevel (setDirection r true s))
  exact ⟨⟨h1, h2, h3, h4, h5, h6, h7⟩, h8, h9, h10, h11⟩

theorem scanRow_frame {s t : State} (h : exec .scanRow s = .next t) : SameButScanner s t := by
  obtain ⟨-, rfl⟩ := scanRow_eq_next h
  obtain ⟨⟨h1, h2, h3, h4, h5, h6, h7⟩, h8, h9, h10, h11⟩ := sampleRow_frame s.scan.scanRow s
  split <;> exact ⟨⟨h1, h2, h3, h4, h5, h6, h7⟩, h8, h9, h10, h11⟩

theorem request_frame {i : Instr} (hi : i.isRequest = true) {s t : State} (h : exec i s = .next t) : SameOutside s t := by
  obtain ⟨-, ⟨b, hf⟩, -, -⟩ := request_eq_next hi h
  constructor <;> rw [hf]

theorem comm_frame {s t : State} (h : exec .comm s = .next t) : SameOutside s t := by
  obtain ⟨-, ⟨-, rfl⟩ | ⟨d, rq, -, ⟨b, hf⟩, -, -⟩⟩ := comm_eq_next h
  · constructor <;> simp
  · constructor <;> rw [hf]

theorem pInLoop_frame {s t : State} (h : exec .pInLoop s = .next t) : SameOutside s t ∧ t.disp.rq = s.disp.rq := by
  obtain ⟨-, hsel, ⟨-, rfl⟩ | ⟨-, -, rfl⟩ | ⟨-, -, -, h⟩⟩ := pInLoop_eq_next h
  · exact ⟨⟨rfl, rfl, rfl, rfl, rfl, rfl, rfl⟩, rfl⟩
  · exact ⟨⟨rfl, rfl, rfl, rfl, rfl, rfl, rfl⟩, rfl⟩
  · obtain ⟨b, -, rfl⟩ := sendChunk_eq_next hsel h
    exact ⟨⟨rfl, rfl, rfl, rfl, rfl, rfl, rfl⟩, rfl⟩

theorem pOutDrain_frame {s t : State} (h : exec .pOutDrain s = .next t) :
    SameOutside s t ∧ t.disp.rq = s.disp.rq := by
  obtain ⟨-, hsel, ⟨-, rfl⟩ | ⟨-, -, rfl⟩⟩ := pOutDrain_eq_next h
  · exact ⟨⟨rfl, rfl, rfl, rfl, rfl, rfl, rfl⟩, rfl⟩
  · unfold drainPacket; dsimp only; split <;> exact ⟨⟨rfl, rfl, rfl, rfl, rfl, rfl, rfl⟩, rfl⟩

/-- What the status stage can do to the control registers (R213, R246). -/
theorem applyPost_ctl (s : State) :
    (applyPost s).ctl = s.ctl ∨
    (∃ v, s.disp.post = .cfg v ∧ (applyPost s).ctl = { s.ctl with cfgValue := v }) ∨
    (s.disp.post = .cfg 1 ∧ s.ctl.enumState = .addressed ∧ cfgAnswer s = true ∧ (applyPost s).ctl = { s.ctl with
      cfgValue := 1, enumState := .configured, idleDuration := 500, idleRemaining := 0 }) ∨
    (s.disp.post = .cfg 0 ∧ s.ctl.enumState = .configured ∧
      (applyPost s).ctl = { s.ctl with cfgValue := 0, enumState := .addressed }) ∨
    (∃ d, s.disp.post = .idle d ∧ (applyPost s).ctl = { s.ctl with idleDuration := d }) ∨
    (∃ b, s.disp.post = .proto b ∧ (applyPost s).ctl = { s.ctl with protocolMode := b }) := by
  unfold applyPost
  cases hp : s.disp.post with
  | none => exact .inl rfl
  | addr a => exact .inl rfl
  | cfg v =>
    right
    dsimp only
    unfold applyCfg; dsimp only
    split
    · rename_i hv
      split
      · rename_i ha
        exact .inr (.inl ⟨by rw [hv.1], hv.2, ha, by simp [hv.1]⟩)
      · exact .inl ⟨v, rfl, by simp⟩
    · split
      · rename_i hv
        exact .inr (.inr (.inl ⟨by rw [hv.1], hv.2, by simp [hv.1]⟩))
      · exact .inl ⟨v, rfl, rfl⟩
  | idle d => exact .inr (.inr (.inr (.inr (.inl ⟨d, rfl, rfl⟩))))
  | proto b => exact .inr (.inr (.inr (.inr (.inr ⟨b, rfl, rfl⟩))))

/-- What the status stage leaves alone; of the endpoints it can only configure the keyboard's. -/
structure StatusFrame (s t : State) : Prop where
  disp : t.disp = { s.disp with dphase := t.disp.dphase }
  par : t.par = s.par
  scan : t.scan = s.scan
  krs : t.krs = s.krs
  uaddr : t.uaddr = s.uaddr
  adden : t.adden = s.adden
  sw : t.sw = s.sw
  pins : t.pins = s.pins
  ev : t.ev = s.ev
  ep0 : t.ep0 = s.ep0
  kbd : t.kbd = s.kbd ∨ t.kbd = configuredKbd (cfgAnswer s) s.kbd
  next : t.disp.dphase = .idle ∨ (t.disp.dphase = .addrAck ∧ t.epSel = s.epSel ∧ ∃ a, s.disp.post = .addr a)

theorem applyPost_frame {s : State} (hk : s.par.kbdEp ≠ 0) : StatusFrame s (applyPost s) := by
  unfold applyPost
  split
  · exact ⟨rfl, rfl, rfl, rfl, rfl, rfl, rfl, rfl, rfl, rfl, .inl rfl, .inl rfl⟩
  · rename_i a ha
    exact ⟨rfl, rfl, rfl, rfl, rfl, rfl, rfl, rfl, rfl, rfl, .inl rfl, .inr ⟨rfl, rfl, a, ha⟩⟩
  · unfold applyCfg; dsimp only
    split
    · have hkbd : ∀ c, (configureEndpoint s.par.kbdEp { s with ctl := c }).kbd = configuredKbd (cfgAnswer s) s.kbd :=
        fun c => configureEndpoint_kbd hk _
      have hep : ∀ c, (configureEndpoint s.par.kbdEp { s with ctl := c }).ep0 = s.ep0 := fun c => configureEndpoint_ep0 hk _
      split
      · exact ⟨by simp [endDispatch, setPhase], by simp, by simp, by simp, by simp, by simp, by simp, by simp, by simp,
          by simp [hep], .inr (by simp [hkbd]), .inl (by simp [endDispatch, setPhase])⟩
      · exact ⟨by simp [endDispatch, setPhase], by simp, by simp, by simp, by simp, by simp, by simp, by simp, by simp,
          by simp [hep], .inr (by simp [hkbd]), .inl (by simp [endDispatch, setPhase])⟩
    · split <;> exact ⟨rfl, rfl, rfl, rfl, rfl, rfl, rfl, rfl, rfl, rfl, .inl rfl, .inl rfl⟩
  · exact ⟨rfl, rfl, rfl, rfl, rfl, rfl, rfl, rfl, rfl, rfl, .inl rfl, .inl rfl⟩
  · exact ⟨rfl, rfl, rfl, rfl, rfl, rfl, rfl, rfl, rfl, rfl, .inl rfl, .inl rfl⟩

/-- An operation is a request, a move or a primitive, or one of the block's own steps. -/
theorem format_cases (i : Instr) :
    i.isRequest = true ∨ (i.format = .envMove ∨ i.format = .primitive) ∨
    i ∈ [Instr.por, .eor, .sof, .comm, .pFxTx, .pInLoop, .pStOut, .pStIn, .pAddrAck, .pOutDrain] ++
      [.scanRow, .getState, .reportSend] := by
  cases i <;> first | exact .inl rfl | exact .inr (.inl (.inl rfl)) | exact .inr (.inl (.inr rfl)) |
    exact .inr (.inr (by simp))

end Sys2Proof.Machine
end

