-- ==== Sys2Proof/Tests/Slice0.lean ====
section
/-! SUPPORT. Tests of the model against spec/95_test_vectors.md (each names its vector or its rule), the smoke tests of
WellFormed, and the witnesses of the statements' hypotheses. -/

namespace Sys2Proof.Tests

open Sys2Proof Sys2Proof.Machine

/-! ## Small states -/

/-- `n` bytes that tell their offset: 0, 1, 2, ... -/
def ramp (n : Nat) : List Byte := (List.range n).map (BitVec.ofNat 8)

/-- Parameters with a layout and a report descriptor of `n` bytes. -/
def params (rows cols : Nat) (layout : Grid Byte) (n : Nat) : Params :=
  { rows := rows, cols := cols, layout := layout, activeLevel := false, debounceScans := 1, kbdEp := 1,
    devDesc := ramp 18, cfgBlob := ramp 34, reportDesc := ramp n }

/-- The parameters of P1. -/
def p1 : Params := params 2 2 [[0x04, 0x05], [0xE1, 0x06]] 63

/-- The state after POR with endpoint 0 configured (P2's start). -/
def ready (p : Params) : State :=
  { State.initial p with ep0 := { (State.initial p).ep0 with cfg := true, txReady := true } }

/-- A SETUP packet stands pending. -/
def pending (bytes : List Byte) (s : State) : State :=
  { s with ep0 := { s.ep0 with setupPend := true, fifo := bytes }, ev := { s.ev with commPend := true } }

/-- The dispatcher stands at a phase. -/
def atPhase (ph : DPhase) (s : State) : State := { s with disp := { s.disp with dphase := ph } }

/-- The main loop stands at a phase. -/
def atMain (ph : MPhase) (s : State) : State := { s with scan := { s.scan with mphase := ph } }

/-- What a next state shows. -/
def after {α : Type} (o : Result) (f : State → α) : Option α :=
  match o with
  | .next s => some (f s)
  | .fault _ => none
  | .refused _ => none

/-- The operation is turned away by that name. -/
def refusedAs (r : Refusal) (o : Result) : Bool :=
  match o with
  | .next _ => false
  | .fault _ => false
  | .refused r' => r == r'

/-- The operation stops with that fault. -/
def faultedAs (f : Fault) (o : Result) : Bool :=
  match o with
  | .next _ => false
  | .fault f' => f == f'
  | .refused _ => false

/-- The configured keyboard of V-I5, at M_SEND. -/
def sending : State :=
  { atMain .send (ready p1) with
    ctl := { (State.initial p1).ctl with enumState := .configured }
    kbd := { cfg := true, rwal := true, fifo := [], inPkt := none } }

/-- The state of V-X1. -/
def configured7 : State :=
  { sending with
    uaddr := 7, adden := true
    ctl := { enumState := .configured, cfgValue := 1, idleDuration := 8, idleRemaining := 3, protocolMode := false } }

/-! ## WellFormed: an ill-formed term for each check -/

theorem test_wf_descriptor_type : (Instr.getDescriptorOther false 0x01 0 0 0).wf p1 = false := by decide
theorem test_wf_unmatched_key : (Instr.unmatched 0x80 0x06 0 0 0).wf p1 = false := by decide
theorem test_wf_setup_length : (Instr.hostSetup (ramp 7)).wf p1 = false := by decide
theorem test_wf_out_length : (Instr.hostOut (ramp 65)).wf p1 = false := by decide
theorem test_wf_keys_row : (Instr.keys 2 0 true).wf p1 = false := by decide
theorem test_wf_keys_col : (Instr.keys 0 2 true).wf p1 = false := by decide
theorem test_wf_endpoint : (Instr.configureEndpoint 2).wf p1 = false := by decide
theorem test_wf_direction_row : (Instr.setDirectionSetLevelReadLevel (.setDirection 2 true)).wf p1 = false := by decide
theorem test_wf_level_row : (Instr.setDirectionSetLevelReadLevel (.setLevel 2 true)).wf p1 = false := by decide
theorem test_wf_column : (Instr.setDirectionSetLevelReadLevel (.readLevel 2)).wf p1 = false := by decide

/-! ## Decoding: one word of every row, from V-E and from R101, R107, R108 -/

theorem test_decode_getReport : decodeTableWord 64 0x00080000010001A1 = some (.getReport 0x0100 0 8) := by decide
theorem test_decode_getIdle : decodeTableWord 64 0x00010000000002A1 = some (.getIdle 0 0 1) := by decide
theorem test_decode_getProtocol : decodeTableWord 64 0x00010000000003A1 = some (.getProtocol 0 0 1) := by decide
theorem test_decode_setReport : decodeTableWord 64 0x0001000002000921 = some (.setReport 0x0200 0 1) := by decide
theorem test_decode_setIdle : decodeTableWord 64 0x9ABC567812340A21 = some (.setIdle 0x1234 0x5678 0x9ABC) := by decide
theorem test_decode_setProtocol : decodeTableWord 64 0x0000000000010B21 = some (.setProtocol 1 0 0) := by decide
theorem test_decode_getStatusDevice : decodeTableWord 64 0x0002000000000080 = some (.getStatusDevice 0 0 2) := by decide
theorem test_decode_getStatusInterface :
    decodeTableWord 64 0x0002000000000081 = some (.getStatusInterface 0 0 2) := by decide
theorem test_decode_getStatusEndpoint :
    decodeTableWord 64 0x0002008100000082 = some (.getStatusEndpoint 0 0x81 2) := by decide
theorem test_decode_clearFeatureDevice :
    decodeTableWord 64 0x0000000000010100 = some (.clearFeatureDevice 1 0 0) := by decide
theorem test_decode_clearFeatureInterface :
    decodeTableWord 64 0x0000000000010101 = some (.clearFeatureInterface 1 0 0) := by decide
theorem test_decode_clearFeatureEndpoint :
    decodeTableWord 64 0x0000008100000102 = some (.clearFeatureEndpoint 0 0x81 0) := by decide
theorem test_decode_setFeatureDevice :
    decodeTableWord 64 0x0000000000010300 = some (.setFeatureDevice 1 0 0) := by decide
theorem test_decode_setFeatureInterface :
    decodeTableWord 64 0x0000000000010301 = some (.setFeatureInterface 1 0 0) := by decide
theorem test_decode_setFeatureEndpoint :
    decodeTableWord 64 0x0000008100000302 = some (.setFeatureEndpoint 0 0x81 0) := by decide
theorem test_decode_setAddress : decodeTableWord 64 0x0000000000070500 = some (.setAddress 7 0 0) := by decide
theorem test_decode_getDescriptorDevice :
    decodeTableWord 64 0x0012000001000680 = some (.getDescriptorDevice false 0 0 18) := by decide
theorem test_decode_getDescriptorConfiguration :
    decodeTableWord 64 0x0009040902050680 = some (.getDescriptorConfiguration false 5 0x0409 9) := by decide
theorem test_decode_getDescriptorHid :
    decodeTableWord 64 0x0004000021000681 = some (.getDescriptorHid true 0 0 4) := by decide
theorem test_decode_getDescriptorReport :
    decodeTableWord 64 0x0041000022000681 = some (.getDescriptorReport true 0 0 0x41) := by decide
theorem test_decode_getDescriptorOther :
    decodeTableWord 64 0x00FF000003000680 = some (.getDescriptorOther false 3 0 0 255) := by decide
theorem test_decode_getConfiguration :
    decodeTableWord 64 0x0001000000000880 = some (.getConfiguration 0 0 1) := by decide
theorem test_decode_setConfiguration :
    decodeTableWord 64 0x0000000000020900 = some (.setConfiguration 2 0 0) := by decide
theorem test_decode_getInterface : decodeTableWord 64 0x0001000000000A81 = some (.getInterface 0 0 1) := by decide
theorem test_decode_setInterface : decodeTableWord 64 0x0000000000000B01 = some (.setInterface 0 0 0) := by decide
theorem test_decode_synchFrame : decodeTableWord 64 0x0002008100000C82 = some (.synchFrame 0 0x81 2) := by decide
/-- V-E: recipient ENDPOINT is not listed for code 0x06. -/
theorem test_decode_unmatched_recipient :
    decodeTableWord 64 0x0012000001000682 = some (.unmatched 0x82 0x06 0x0100 0 18) := by decide
/-- V-E: SET_IDLE's code with direction 1. -/
theorem test_decode_unmatched_direction :
    decodeTableWord 64 0x0001000000000AA1 = some (.unmatched 0xA1 0x0A 0 0 1) := by decide
theorem test_decode_seven_bytes : decode (ramp 7) = .error (.notEightBytes 7) := by decide
theorem test_encode_parse_vector :
    encode (.setIdle 0x1234 0x5678 0x9ABC) = some [0x21, 0x0A, 0x34, 0x12, 0x78, 0x56, 0xBC, 0x9A] := by decide

/-! ## Requests, at the entry step -/

/-- Where a handler starts. -/
def starting : State := pending [] (ready p1)

/-- P5 (a) and V-H1: 8 bytes of krs, none when nothing is requested. -/
theorem test_getReport : after (exec (.getReport 0x0100 0 8) starting)
    (fun t => (t.disp.xfSrc, t.disp.xfRem, t.disp.dphase)) = some (.krs, 8, .inLoop) := by decide
theorem test_getReport_nothing :
    after (exec (.getReport 0x0100 0 0) starting) (fun t => t.disp.dphase) = some .stOut := by decide
/-- V-H2: 499 replies 7C, 1020 replies FF. -/
theorem test_getIdle_499 : after (exec (.getIdle 0 0 1) { starting with
    ctl := { starting.ctl with idleRemaining := 499 } }) (fun t => (t.disp.fx, t.disp.dphase)) =
    some ([0x7C], .fxTx) := by decide
theorem test_getIdle_1020 : after (exec (.getIdle 0 0 1) { starting with
    ctl := { starting.ctl with idleRemaining := 1020 } }) (fun t => t.disp.fx) = some [0xFF] := by decide
/-- V-H4: after POR the reply is 01. -/
theorem test_getProtocol : after (exec (.getProtocol 0 0 1) starting) (fun t => t.disp.fx) = some [0x01] := by decide
/-- V-H5: 65 bytes are drained, 0 acknowledged at once. -/
theorem test_setReport_65 : after (exec (.setReport 0x0200 0 65) starting)
    (fun t => (t.disp.xfRem, t.disp.dphase)) = some (65, .outDrain) := by decide
theorem test_setReport_0 : after (exec (.setReport 0x0200 0 0) starting)
    (fun t => (t.disp.post, t.disp.dphase)) = some (.none, .stIn) := by decide
/-- V-H3: 7D is 500 ticks, FF is 1020, the report id is ignored. -/
theorem test_setIdle_7D : after (exec (.setIdle 0x7D05 0 0) starting) (fun t => t.disp.post) = some (.idle 500) := by
  decide
theorem test_setIdle_FF : after (exec (.setIdle 0xFF00 0 0) starting) (fun t => t.disp.post) = some (.idle 1020) := by
  decide
/-- S10: only the wire value 1 is report protocol. -/
theorem test_setProtocol_1 : after (exec (.setProtocol 1 0 0) starting) (fun t => t.disp.post) = some (.proto true) := by
  decide
theorem test_setProtocol_0101 :
    after (exec (.setProtocol 0x0101 0 0) starting) (fun t => t.disp.post) = some (.proto false) := by decide
/-- S12: two zero bytes for each recipient; V-S2: whatever the requested length. -/
theorem test_getStatusDevice : after (exec (.getStatusDevice 0 0 1) starting) (fun t => t.disp.fx) = some [0, 0] := by
  decide
theorem test_getStatusInterface :
    after (exec (.getStatusInterface 0 0 2) starting) (fun t => t.disp.fx) = some [0, 0] := by decide
theorem test_getStatusEndpoint :
    after (exec (.getStatusEndpoint 0 0x81 2) starting) (fun t => t.disp.fx) = some [0, 0] := by decide
/-- R202, R203: acknowledged. -/
theorem test_clearFeatureDevice :
    after (exec (.clearFeatureDevice 1 0 0) starting) (fun t => (t.disp.dphase, t.ep0.setupPend)) =
      some (.stIn, false) := by decide
theorem test_clearFeatureInterface :
    after (exec (.clearFeatureInterface 0 0 0) starting) (fun t => (t.disp.post, t.disp.dphase)) =
      some (.none, .stIn) := by decide
theorem test_clearFeatureEndpoint :
    after (exec (.clearFeatureEndpoint 0 0x81 0) starting) (fun t => (t.disp.post, t.ep0.stallReq)) =
      some (.none, false) := by decide
theorem test_setFeatureDevice :
    after (exec (.setFeatureDevice 1 0 0) starting) (fun t => (t.disp.post, t.disp.dphase)) = some (.none, .stIn) := by
  decide
theorem test_setFeatureInterface :
    after (exec (.setFeatureInterface 0 0 0) starting) (fun t => (t.disp.post, t.disp.dphase)) = some (.none, .stIn) := by
  decide
theorem test_setFeatureEndpoint :
    after (exec (.setFeatureEndpoint 0 0x81 0) starting) (fun t => (t.disp.post, t.ep0.stallReq)) =
      some (.none, false) := by decide
/-- S13: 0x0080 is address 0, 0xFF05 is address 5; S2: nothing is written yet. -/
theorem test_setAddress_80 : after (exec (.setAddress 0x0080 0 0) starting)
    (fun t => (t.disp.post, t.uaddr, t.adden)) = some (.addr 0, 0, false) := by decide
theorem test_setAddress_FF05 :
    after (exec (.setAddress 0xFF05 0 0) starting) (fun t => t.disp.post) = some (.addr 5) := by decide
/-- V-T and V-S6: the device descriptor, 18 bytes at most. -/
theorem test_getDescriptorDevice_64 : after (exec (.getDescriptorDevice false 0 0 64) starting)
    (fun t => (t.disp.xfSrc, t.disp.xfRem, t.disp.xfZlp)) = some (.dev, 18, false) := by decide
theorem test_getDescriptorDevice_0 :
    after (exec (.getDescriptorDevice false 0 0 0) starting) (fun t => t.disp.dphase) = some .stOut := by decide
/-- S4. -/
theorem test_getDescriptorConfiguration : after (exec (.getDescriptorConfiguration false 0 0 255) starting)
    (fun t => (t.disp.xfSrc, t.disp.xfRem)) = some (.cfgTree, 34) := by decide
/-- V-S9. -/
theorem test_getDescriptorHid : after (exec (.getDescriptorHid true 0 0 4) starting)
    (fun t => (t.disp.xfSrc, t.disp.xfRem)) = some (.cfgHid, 4) := by decide
/-- P2 (a): 128 of 255 owes a zero-length packet; (b): 128 of 128 does not. -/
theorem test_getDescriptorReport_255 :
    after (exec (.getDescriptorReport true 0 0 255) (pending [] (ready (params 1 1 [[4]] 128))))
      (fun t => (t.disp.xfRem, t.disp.xfZlp)) = some (128, true) := by decide +kernel
theorem test_getDescriptorReport_128 :
    after (exec (.getDescriptorReport true 0 0 128) (pending [] (ready (params 1 1 [[4]] 128))))
      (fun t => (t.disp.xfRem, t.disp.xfZlp)) = some (128, false) := by decide +kernel
/-- V-D6: ignored. -/
theorem test_getDescriptorOther : after (exec (.getDescriptorOther false 3 0 0 255) starting)
    (fun t => (t.ep0.setupPend, t.ep0.stallReq, t.disp.dphase)) = some (false, false, .idle) := by decide
/-- V-S12: the value 1 passes; S1: the value 2 is ignored. -/
theorem test_getConfiguration_1 : after (exec (.getConfiguration 1 0 1) { starting with
    ctl := { starting.ctl with cfgValue := 1 } }) (fun t => t.disp.fx) = some [0x01] := by decide
theorem test_getConfiguration_2 :
    after (exec (.getConfiguration 2 0 1) starting) (fun t => (t.ep0.setupPend, t.disp.dphase)) =
      some (false, .idle) := by decide
/-- P1 step 7; V-S17: the value 0x0100 is ignored. -/
theorem test_setConfiguration_1 :
    after (exec (.setConfiguration 1 0 0) starting) (fun t => (t.disp.post, t.disp.dphase)) =
      some (.cfg 1, .stIn) := by decide
theorem test_setConfiguration_0100 :
    after (exec (.setConfiguration 0x0100 0 0) starting) (fun t => t.disp.dphase) = some .idle := by decide
/-- V-S18, V-S19, V-S20. -/
theorem test_getInterface : after (exec (.getInterface 0 0 1) starting) (fun t => t.disp.fx) = some [0] := by decide
theorem test_setInterface :
    after (exec (.setInterface 5 0 0) starting) (fun t => (t.disp.post, t.disp.dphase)) = some (.none, .stIn) := by decide
theorem test_synchFrame : after (exec (.synchFrame 0 0x81 2) starting)
    (fun t => (t.ep0.setupPend, t.ep0.stallReq, t.disp.dphase)) = some (false, false, .idle) := by decide
/-- V-D2. -/
theorem test_unmatched : after (exec (.unmatched 0xC0 0x01 0 0 0) starting)
    (fun t => (t.ep0.setupPend, t.ep0.fifo, t.ep0.stallReq, t.disp.dphase)) = some (false, [], true, .idle) := by decide

/-! ## The entry step, the handlers, power-on reset -/

/-- V-D1. -/
theorem test_comm_spurious : after (exec .comm { ready p1 with
    ev := { (ready p1).ev with commPend := true } }) (fun t => (t.ev.commPend, t.epSel, t.ep0.stallReq, t.disp)) =
      some (false, 0, true, (ready p1).disp) := by decide
/-- S9's packet: fetched, decoded and started. -/
theorem test_comm_getDescriptor : after (exec .comm (pending [0x80, 6, 0, 1, 0, 0, 8, 0] (ready p1)))
    (fun t => (t.disp.rq.value, t.disp.xfSrc, t.disp.xfRem, t.ep0.setupPend)) = some (0x0100, .dev, 8, false) := by decide
/-- V-X1 and V-X2: the state is Default whatever the endpoint controller answers. -/
theorem test_eor_ok : after (exec .eor { configured7 with
    ev := { configured7.ev with eorPend := true }, cfgAnswers := [true] })
    (fun t => (t.ctl.enumState, t.ep0.cfg, t.ep0.txReady, t.ctl.idleRemaining)) = some (.default, true, true, 3) := by
  decide
theorem test_eor_fail : after (exec .eor { configured7 with
    ev := { configured7.ev with eorPend := true }, cfgAnswers := [false] })
    (fun t => (t.ctl.enumState, t.ep0.cfg, t.ep0.txReady, t.ctl.cfgValue)) = some (.default, false, false, 1) := by decide
/-- V-I1, V-I2. -/
theorem test_sof_1 : after (exec .sof { ready p1 with
    ctl := { (ready p1).ctl with idleRemaining := 1 }, ev := { (ready p1).ev with sofPend := true } })
    (fun t => (t.ctl.idleRemaining, t.ev.sofPend)) = some (0, false) := by decide
theorem test_sof_0 : after (exec .sof { ready p1 with
    ctl := { (ready p1).ctl with idleRemaining := 0 }, ev := { (ready p1).ev with sofPend := true } })
    (fun t => (t.ctl.idleRemaining, t.ev.sofPend)) = some (0, false) := by decide
/-- V-X8: the table of spec/10 section 11. -/
theorem test_por : after (exec .por configured7)
    (fun t => (t.ctl.enumState, t.ctl.idleDuration, t.ctl.protocolMode, t.uaddr, t.kbd.cfg)) =
      some (.default, 500, true, 0, false) := by decide
/-- V-D4. -/
theorem test_comm_waits_for_sof : refusedAs .notEnabled (exec .comm { starting with
    ev := { starting.ev with sofPend := true } }) = true := by decide

/-! ## The phases -/

/-- V-T8, and the overrun of R336. -/
theorem test_pFxTx : after (exec .pFxTx (atPhase .fxTx { ready p1 with
    disp := { (ready p1).disp with fx := [1] } })) (fun t => (t.ep0.inPkt, t.ep0.txReady, t.disp.dphase)) =
      some (some [1], false, .stOut) := by decide
theorem test_pFxTx_overrun : faultedAs .fifoOverrun (exec .pFxTx (atPhase .fxTx { ready p1 with
    disp := { (ready p1).disp with fx := [0, 0] }, ep0 := { (ready p1).ep0 with rxPend := true, fifo := ramp 63 } })) =
      true := by decide +kernel

/-- P2: a transfer of RPT with REPORT_DESC_LEN = 130. -/
def looping (ptr rem : Word16) : State :=
  let s := atPhase .inLoop (ready (params 1 1 [[4]] 130))
  { s with disp := { s.disp with xfSrc := .rpt, xfPtr := ptr, xfRem := rem } }

/-- The register trace of L = 130: (64, 66) to (128, 2); V-T3: SETUP wins over OUT. -/
theorem test_pInLoop : after (exec .pInLoop (looping 64 66))
    (fun t => (t.disp.xfPtr, t.disp.xfRem, t.ep0.inPkt.map fun p => (p.head?, p.length))) =
      some (128, 2, some (some 64, 64)) := by decide +kernel
theorem test_pInLoop_setup : after (exec .pInLoop { looping 64 66 with
    ep0 := { (looping 64 66).ep0 with setupPend := true, rxPend := true } })
    (fun t => (t.disp.dphase, t.disp.xfRem, t.ep0.rxPend)) = some (.idle, 66, true) := by decide
/-- V-T1. -/
theorem test_pStOut : after (exec .pStOut (atPhase .stOut { ready p1 with
    ep0 := { (ready p1).ep0 with rxPend := true } })) (fun t => (t.ep0.rxPend, t.disp.dphase)) =
      some (false, .idle) := by decide

/-- A host-to-device request at its status stage. -/
def status (e : EnumState) (p : PostEffect) (ok : Bool) : State :=
  let s := atPhase .stIn (ready p1)
  { s with disp := { s.disp with post := p }, cfgAnswers := [ok]
           ctl := { s.ctl with enumState := e, idleDuration := 8, idleRemaining := 5 } }

/-- S3, both answers. -/
theorem test_pStIn_configured : after (exec .pStIn (status .addressed (.cfg 1) true))
    (fun t => (t.ctl.enumState, t.ctl.idleDuration, t.ctl.idleRemaining, t.kbd.cfg)) =
      some (.configured, 500, 0, true) := by decide
theorem test_pStIn_failed : after (exec .pStIn (status .addressed (.cfg 1) false))
    (fun t => (t.ctl.enumState, t.ctl.idleDuration, t.ctl.idleRemaining, t.kbd.cfg, t.ctl.cfgValue)) =
      some (.addressed, 8, 5, false, 1) := by decide
/-- V-S5's address. -/
theorem test_pAddrAck : after (exec .pAddrAck (atPhase .addrAck { ready p1 with
    disp := { (ready p1).disp with post := .addr 9 } }))
    (fun t => (t.uaddr, t.adden, t.ctl.enumState, t.hostTrace)) = some (9, true, .addressed, [.addr 9]) := by decide

/-- SET_REPORT with an OUT packet of `n` bytes pending and `rem` bytes owed. -/
def draining (n : Nat) (rem : Word16) : State :=
  let s := atPhase .outDrain (ready p1)
  { s with disp := { s.disp with xfRem := rem }, ep0 := { s.ep0 with rxPend := true, fifo := ramp n } }

/-- V-H5: 65 to 1, stays; 64 to 54 by a short packet, ends. -/
theorem test_pOutDrain_stays : after (exec .pOutDrain (draining 64 65))
    (fun t => (t.disp.xfRem, t.disp.dphase, t.ep0.fifo)) = some (1, .outDrain, []) := by decide
theorem test_pOutDrain_short : after (exec .pOutDrain (draining 10 64))
    (fun t => (t.disp.xfRem, t.disp.dphase)) = some (54, .stIn) := by decide

/-! ## The main loop -/

/-- P1 step 10: both keys of column 0 down. -/
def pressed : State := { ready p1 with sw := [[true, false], [true, false]] }

theorem test_scanRow_first : after (exec .scanRow pressed)
    (fun t => (t.scan.matrix, t.scan.scanRow, t.scan.mphase, t.pins.rowDir)) =
      some ([[true, false], [false, false]], 1, .scan, [false, false]) := by decide
theorem test_scanRow_last : after (exec .scanRow { pressed with scan := { pressed.scan with scanRow := 1 } })
    (fun t => (t.scan.scanChanged, t.scan.scanRow, t.scan.scanAcc, t.scan.mphase)) = some (true, 0, false, .state) := by
  decide

/-- The matrix of V-M, at M_STATE. -/
def matrixOf (m : Grid Bool) : State :=
  let s := atMain .state (ready (params 2 4 [[0x04, 0x05, 0x06, 0x07], [0x08, 0x09, 0x0A, 0xE4]] 63))
  { s with scan := { s.scan with matrix := m } }

/-- V-M3 and V-M4. -/
theorem test_getState_overflow : after (exec .getState (matrixOf [[true, true, true, true], [true, true, true, false]]))
    (fun t => (t.krs.ovf, reportBytes t.krs)) = some (true, [0, 0, 4, 5, 6, 7, 8, 9]) := by decide
theorem test_getState_six : after (exec .getState (matrixOf [[true, true, true, true], [true, true, false, true]]))
    (fun t => (t.krs.ovf, reportBytes t.krs)) = some (false, [0x10, 0, 4, 5, 6, 7, 8, 9]) := by decide
/-- V-I5 and V-I8. -/
theorem test_reportSend : after (exec .reportSend sending)
    (fun t => (t.kbd.inPkt, t.kbd.rwal, t.ctl.idleRemaining, t.epSel, t.scan.mphase)) =
      some (some [0, 0, 0, 0, 0, 0, 0, 0], false, 500, 1, .scan) := by decide
theorem test_reportSend_busy : after (exec .reportSend { sending with kbd := { sending.kbd with rwal := false } })
    (fun t => (t.kbd.inPkt, t.ctl.idleRemaining, t.epSel)) = some (none, 0, 1) := by decide

/-! ## The environment -/

/-- V-D3 and V-X10. -/
theorem test_hostSetup : after (exec (.hostSetup (ramp 8)) { ready p1 with
    ep0 := { (ready p1).ep0 with stallReq := true, rxPend := true, inPkt := some [], txReady := false } })
    (fun t => ([t.ep0.stallReq, t.ep0.setupPend, t.ep0.txReady, t.ep0.rxPend, t.ev.commPend], t.ep0.inPkt)) =
      some ([false, true, true, false, true], none) := by decide
theorem test_hostSetup_unconfigured :
    refusedAs .moveImpossible (exec (.hostSetup (ramp 8)) (State.initial p1)) = true := by decide
/-- R161, R162, and V-X5: no OUT packet while a SETUP is pending. -/
theorem test_hostIn0 : after (exec .hostIn0 { ready p1 with
    ep0 := { (ready p1).ep0 with inPkt := some [1], txReady := false } })
    (fun t => (t.ep0.inPkt, t.ep0.txReady, t.hostTrace)) = some (none, true, [.in0 [1]]) := by decide
theorem test_hostOut : after (exec (.hostOut [7]) (ready p1)) (fun t => (t.ep0.rxPend, t.ep0.fifo)) =
    some (true, [7]) := by decide
theorem test_hostOut_setup : refusedAs .moveImpossible (exec (.hostOut []) starting) = true := by decide
/-- V-X1: the transport is cleared, the block state is not. -/
theorem test_busReset : after (exec .busReset configured7)
    (fun t => (t.uaddr, t.adden, t.ep0.cfg, t.kbd.cfg, t.ev.eorPend, t.ctl.enumState)) =
      some (0, false, false, false, true, .configured) := by decide
theorem test_sofTick : after (exec .sofTick (ready p1)) (fun t => t.ev.sofPend) = some true := by decide
theorem test_spuriousComm : after (exec .spuriousComm (ready p1))
    (fun t => (t.ev.commPend, t.ep0.setupPend)) = some (true, false) := by decide
/-- V-I10. -/
theorem test_hostInk : after (exec .hostInk { sending with
    kbd := { sending.kbd with inPkt := some (ramp 8), rwal := false } })
    (fun t => (t.kbd.inPkt, t.kbd.rwal, t.hostTrace)) = some (none, true, [.inK (ramp 8)]) := by decide
/-- P1 step 9. -/
theorem test_keys : after (exec (.keys 1 0 true) (ready p1)) (fun t => t.sw) =
    some [[false, false], [true, false]] := by decide
/-- P3 step 2. -/
theorem test_hostStalled : after (exec .hostStalled { ready p1 with
    ep0 := { (ready p1).ep0 with stallReq := true } }) (fun t => (t.hostTrace, t.ep0.stallReq)) =
      some ([.stall0], true) := by decide

/-! ## The primitives (R142 to R156, R301) -/

/-- The keyboard endpoint selected. -/
def onKeyboard : State := { sending with epSel := 1 }

theorem test_selectEndpoint : after (exec (.selectEndpoint 1) (ready p1)) (fun t => t.epSel) = some 1 := by decide
theorem test_isSetupPending : after (exec .isSetupPending starting) (fun t => t.answer) = some (.bit true) := by decide
theorem test_isSendReady : after (exec .isSendReady starting) (fun t => t.answer) = some (.bit true) := by decide
theorem test_isReceivePending : after (exec .isReceivePending starting) (fun t => t.answer) = some (.bit false) := by
  decide
/-- The oldest byte comes first; the selected FIFO is the keyboard's when it is selected. -/
theorem test_fifoRead : after (exec .fifoRead (pending [5, 6] (ready p1))) (fun t => (t.answer, t.ep0.fifo)) =
    some (.byte 5, [6]) := by decide
theorem test_fifoRead_kbd : after (exec .fifoRead { onKeyboard with kbd := { onKeyboard.kbd with fifo := [8, 9] } })
    (fun t => (t.answer, t.kbd.fifo)) = some (.byte 8, [9]) := by decide
theorem test_fifoWrite : after (exec (.fifoWrite 9) onKeyboard) (fun t => (t.kbd.fifo, t.ep0.fifo)) =
    some ([9], []) := by decide
theorem test_fifoWrite_full : faultedAs .fifoOverrun (exec (.fifoWrite 9) { onKeyboard with
    kbd := { onKeyboard.kbd with fifo := ramp 8 } }) = true := by decide
theorem test_clearSetupFlag : after (exec .clearSetupFlag (pending [5] (ready p1)))
    (fun t => (t.ep0.setupPend, t.ep0.fifo)) = some (false, []) := by decide
theorem test_clearSendFlag : after (exec .clearSendFlag { ready p1 with ep0 := { (ready p1).ep0 with fifo := [3] } })
    (fun t => (t.ep0.inPkt, t.ep0.fifo, t.ep0.txReady)) = some (some [3], [], false) := by decide
theorem test_clearReceiveFlag : after (exec .clearReceiveFlag { ready p1 with
    ep0 := { (ready p1).ep0 with rxPend := true, fifo := [3] } }) (fun t => (t.ep0.rxPend, t.ep0.fifo)) =
      some (false, []) := by decide
theorem test_stall : after (exec .stall (ready p1)) (fun t => t.ep0.stallReq) = some true := by decide
theorem test_syncStatusStage_d2h : after (exec (.syncStatusStage .d2h) { ready p1 with
    ep0 := { (ready p1).ep0 with rxPend := true } }) (fun t => (t.ep0.rxPend, t.ep0.txReady)) =
      some (false, true) := by decide
theorem test_syncStatusStage_h2d : after (exec (.syncStatusStage .h2d) (ready p1))
    (fun t => (t.ep0.inPkt, t.ep0.txReady)) = some (some [], false) := by decide
theorem test_writeAddress : after (exec (.writeAddress 42) (ready p1)) (fun t => (t.uaddr, t.adden, t.hostTrace)) =
    some (42, true, [.addr 42]) := by decide
theorem test_configureEndpoint_ok : after (exec (.configureEndpoint 1) { ready p1 with cfgAnswers := [true] })
    (fun t => (t.kbd.cfg, t.kbd.rwal, t.answer)) = some (true, true, .bit true) := by decide
theorem test_configureEndpoint_fail : after (exec (.configureEndpoint 0) { ready p1 with cfgAnswers := [false] })
    (fun t => (t.ep0.cfg, t.ep0.txReady, t.answer)) = some (false, false, .bit false) := by decide
theorem test_kbdReady : after (exec .kbdReady onKeyboard) (fun t => t.answer) = some (.bit true) := by decide
theorem test_kbdRearm : after (exec .kbdRearm { onKeyboard with kbd := { onKeyboard.kbd with fifo := ramp 8 } })
    (fun t => (t.kbd.inPkt, t.kbd.fifo, t.kbd.rwal)) = some (some (ramp 8), [], false) := by decide
/-- R302: a column follows a conducting switch only while its row is driven. -/
theorem test_readLevel_driven : after (exec (.setDirectionSetLevelReadLevel (.readLevel 0)) { pressed with
    pins := { rowDir := [true, false], rowLvl := [false, false] } }) (fun t => t.answer) = some (.bit false) := by decide
theorem test_readLevel_input : after (exec (.setDirectionSetLevelReadLevel (.readLevel 0)) pressed)
    (fun t => t.answer) = some (.bit true) := by decide

/-! ## Witnesses: for every statement with hypotheses, a state and operands that meet them, clause by clause -/

theorem witness_DecodeInvertsEncode :
    (Instr.getDescriptorOther true 0xFF 0xFF 0xFFFF 0).wf p1 = true ∧
      encode (.getDescriptorOther true 0xFF 0xFF 0xFFFF 0) = some [0x81, 6, 0xFF, 0xFF, 0xFF, 0xFF, 0, 0] := by decide

theorem witness_DecodeIsTotalOnPackets :
    ((Instr.setAddress 7 0 0).wf p1 = true ∧ encode (.setAddress 7 0 0) = some [0, 5, 7, 0, 0, 0, 0, 0]) ∧
    (ramp 8).length = 8 ∧ (ramp 7).length ≠ 8 ∧ (ramp 9).length ≠ 8 ∧ ([] : List Byte).length ≠ 8 := by decide

/-- A packet for each clause: type VENDOR, recipient 3, class to the device, class code 0x04, codes 0x02 and 0x0D. -/
theorem witness_UnmatchedPackets :
    (0x83, 0x00) ∉ rowKeys ∧ 2 ≤ ((0x40 : Byte).extractLsb' 5 2).toNat ∧ 3 ≤ ((0x83 : Byte).extractLsb' 0 5).toNat ∧
    ((0xA0 : Byte).extractLsb' 5 2).toNat = 1 ∧ ((0xA0 : Byte).extractLsb' 0 5).toNat ≠ 1 ∧
    ((0xA1 : Byte).extractLsb' 5 2).toNat = 1 ∧ (0x04 : Byte) ∉ [(0x01 : Byte), 0x02, 0x03, 0x09, 0x0A, 0x0B] ∧
    ((0x00 : Byte).extractLsb' 5 2).toNat = 0 ∧ (0x02 : Byte) ∈ [(0x02 : Byte), 0x04, 0x07] ∧ 0x0D ≤ (0x0D : Byte).toNat :=
  by decide

theorem witness_NoOpRequestsAreAcknowledged : HandlerStarts starting ∧ starting.ep0.txReady = true := by decide
theorem witness_ZeroReplies : HandlerStarts starting ∧ starting.ep0.txReady = true := by decide
theorem witness_IdleAndProtocolReplies : HandlerStarts starting := by decide
theorem witness_IdleAndProtocolAreSet : HandlerStarts starting ∧ starting.ep0.txReady = true := by decide
theorem witness_AddressIsLatched : HandlerStarts starting := by decide
/-- Both clauses, at their boundary. -/
theorem witness_ConfigurationRequests : HandlerStarts starting ∧ 1 < (2 : Word16).toNat ∧ (1 : Word16).toNat ≤ 1 := by
  decide
theorem witness_ChunkedReadsStart : HandlerStarts starting := by decide
theorem witness_IgnoredRequests : HandlerStarts starting := by decide
theorem witness_SetReportStarts : HandlerStarts starting := by decide
theorem witness_UnmatchedRequestsStall : HandlerStarts starting := by decide

/-- A spurious event. -/
def spurious : State := { ready p1 with ev := { (ready p1).ev with commPend := true } }

theorem witness_SpuriousEventStalls : CommEnabled spurious ∧ spurious.ep0.setupPend = false := by decide

/-- GET_STATUS pending. -/
def fetched : State := pending [0x80, 0, 0, 0, 0, 0, 2, 0] (ready p1)

theorem witness_EntryRunsTheDecodedRequest :
    CommEnabled fetched ∧ fetched.ep0.setupPend = true ∧ fetched.ep0.fifo = [0x80, 0, 0, 0, 0, 0, 2, 0] ∧
      decode [0x80, 0, 0, 0, 0, 0, 2, 0] = .ok (.getStatusDevice 0 0 2) :=
  ⟨by decide, by decide, by decide, rfl⟩
theorem witness_EntryCompletes : CommEnabled fetched ∧ CommEnabled spurious := by decide

/-- A fixed reply of two zero bytes beside an unread payload of `n` bytes. -/
def replying (n : Nat) : State :=
  let s := atPhase .fxTx (ready p1)
  { s with disp := { s.disp with fx := [0, 0] }, ep0 := { s.ep0 with rxPend := true, fifo := ramp n } }

theorem witness_FixedReplyIsCommitted :
    (replying 62).disp.dphase = .fxTx ∧ (replying 62).ep0.txReady = true ∧ (replying 62).epSel = 0 ∧
      (replying 62).ep0.fifo.length + (replying 62).disp.fx.length ≤ 64 := by decide +kernel
theorem witness_FixedReplyOverruns :
    (replying 63).disp.dphase = .fxTx ∧ (replying 63).ep0.txReady = true ∧ (replying 63).epSel = 0 ∧
      (replying 63).ep0.fifo.length ≤ 64 ∧ 64 < (replying 63).ep0.fifo.length + (replying 63).disp.fx.length := by
  decide +kernel

/-- `looping` with an OUT or a SETUP pending. -/
def interrupted (setup out : Bool) : State :=
  let s := looping 64 66
  { s with ep0 := { s.ep0 with setupPend := setup, rxPend := out } }

/-- Both clauses; a SETUP wins beside an OUT. -/
theorem witness_TransferLoopExitsEarly :
    (interrupted true true).disp.dphase = .inLoop ∧ (interrupted true true).epSel = 0 ∧
      (interrupted true true).ep0.setupPend = true ∧
    (interrupted false true).disp.dphase = .inLoop ∧ (interrupted false true).epSel = 0 ∧
      (interrupted false true).ep0.setupPend = false ∧ (interrupted false true).ep0.rxPend = true := by decide
/-- The last bytes of a source of 130. -/
theorem witness_TransferLoopSendsOnePacket :
    let s := looping 128 2
    s.disp.dphase = .inLoop ∧ s.epSel = 0 ∧ s.ep0.setupPend = false ∧ s.ep0.rxPend = false ∧ s.ep0.txReady = true ∧
      s.ep0.fifo = [] ∧ s.disp.xfPtr.toNat + min s.disp.xfRem.toNat 64 ≤ (sourceBytes s s.disp.xfSrc).length := by
  decide +kernel
theorem witness_TransferSources : (ready p1).par.wf := by decide +kernel

/-- The wait for the status OUT, over. -/
def statusOut : State :=
  let s := atPhase .stOut (ready p1)
  { s with ep0 := { s.ep0 with rxPend := true } }

theorem witness_StatusOutEndsTheDispatch :
    statusOut.disp.dphase = .stOut ∧ statusOut.ep0.rxPend = true ∧ statusOut.epSel = 0 := by decide

/-- What every clause about the status IN assumes. -/
abbrev AtStatusIn (s : State) (p : PostEffect) : Prop :=
  s.disp.dphase = .stIn ∧ s.ep0.txReady = true ∧ s.epSel = 0 ∧ s.disp.post = p

theorem witness_StatusInAppliesTheEffect :
    AtStatusIn (status .addressed .none true) .none ∧ AtStatusIn (status .addressed (.idle 1020) true) (.idle 1020) ∧
    AtStatusIn (status .addressed (.proto false) true) (.proto false) ∧
    AtStatusIn (status .default (.addr 127) true) (.addr 127) := by decide
/-- The five clauses. -/
theorem witness_ConfigurationInEveryState :
    p1.kbdEp ≠ 0 ∧
    (AtStatusIn (status .addressed (.cfg 1) true) (.cfg 1) ∧
      (status .addressed (.cfg 1) true).ctl.enumState = .addressed ∧ cfgAnswer (status .addressed (.cfg 1) true) = true) ∧
    (AtStatusIn (status .addressed (.cfg 1) false) (.cfg 1) ∧
      (status .addressed (.cfg 1) false).ctl.enumState = .addressed ∧
      cfgAnswer (status .addressed (.cfg 1) false) = false) ∧
    (AtStatusIn (status .default (.cfg 1) true) (.cfg 1) ∧ (status .default (.cfg 1) true).ctl.enumState ≠ .addressed) ∧
    (AtStatusIn (status .configured (.cfg 0) true) (.cfg 0) ∧
      (status .configured (.cfg 0) true).ctl.enumState = .configured) ∧
    (AtStatusIn (status .addressed (.cfg 0) true) (.cfg 0) ∧
      (status .addressed (.cfg 0) true).ctl.enumState ≠ .configured) := by decide

/-- SET_ADDRESS(5) waits for the host, which has or has not collected the status packet. -/
def acknowledging (collected : Bool) : State :=
  let s := atPhase .addrAck (ready p1)
  { s with disp := { s.disp with post := .addr 5 }, ep0 := { s.ep0 with txReady := collected } }

theorem witness_AddressIsWrittenAfterTheStatusStage :
    (acknowledging true).disp.dphase = .addrAck ∧ (acknowledging true).disp.post = .addr 5 ∧
      (acknowledging true).epSel = 0 ∧ (acknowledging true).ep0.txReady = true ∧
    (acknowledging false).disp.dphase = .addrAck ∧ (acknowledging false).disp.post = .addr 5 ∧
      (acknowledging false).epSel = 0 ∧ (acknowledging false).ep0.txReady = false := by decide

/-- What is still owed after the pending OUT packet. -/
abbrev owed (s : State) : Nat := s.disp.xfRem.toNat - min s.ep0.fifo.length s.disp.xfRem.toNat

/-- The three clauses: a SETUP; the last byte owed by a full packet, and a short packet; a full packet with one more
byte owed. -/
theorem witness_ReportDataIsDrained :
    (let s := { draining 0 8 with ep0 := { (draining 0 8).ep0 with setupPend := true } };
      s.disp.dphase = .outDrain ∧ s.epSel = 0 ∧ s.ep0.setupPend = true) ∧
    (let s := draining 64 64;
      s.disp.dphase = .outDrain ∧ s.epSel = 0 ∧ s.ep0.setupPend = false ∧ s.ep0.rxPend = true ∧ owed s = 0) ∧
    (let s := draining 63 64;
      s.disp.dphase = .outDrain ∧ s.epSel = 0 ∧ s.ep0.setupPend = false ∧ s.ep0.rxPend = true ∧
        s.ep0.fifo.length < 64) ∧
    (let s := draining 64 65;
      s.disp.dphase = .outDrain ∧ s.epSel = 0 ∧ s.ep0.setupPend = false ∧ s.ep0.rxPend = true ∧ owed s ≠ 0 ∧
        64 ≤ s.ep0.fifo.length) := by decide +kernel

/-- A phase with every flag of endpoint 0 at 0. -/
def waiting (ph : DPhase) : State := atPhase ph (State.initial p1)

/-- For each clause, its phase with the flag not yet come; and another phase. -/
theorem witness_WaitsHold :
    ((waiting .fxTx).disp.dphase = .fxTx ∧ (waiting .fxTx).ep0.txReady = false) ∧
    ((waiting .stIn).disp.dphase = .stIn ∧ (waiting .stIn).ep0.txReady = false) ∧
    ((waiting .addrAck).disp.dphase = .addrAck ∧ (waiting .addrAck).ep0.txReady = false) ∧
    ((waiting .stOut).disp.dphase = .stOut ∧ (waiting .stOut).ep0.rxPend = false) ∧
    ((waiting .outDrain).disp.dphase = .outDrain ∧ (waiting .outDrain).ep0.rxPend = false ∧
      (waiting .outDrain).ep0.setupPend = false) ∧
    ((waiting .inLoop).disp.dphase = .inLoop ∧ (waiting .inLoop).ep0.txReady = false ∧
      (waiting .inLoop).ep0.rxPend = false ∧ (waiting .inLoop).ep0.setupPend = false) ∧
    (waiting .idle).disp.dphase ≠ .fxTx := by decide

theorem witness_EndOfResetHandler : EorEnabled { ready p1 with
    ev := { eorPend := true, sofPend := true, commPend := true } } := by decide
theorem witness_StartOfFrameHandler : SofEnabled { ready p1 with
    ev := { eorPend := false, sofPend := true, commPend := true } } := by decide
theorem witness_ExclusivityAndPriority :
    (waiting .stOut).disp.dphase ≠ .idle ∧ ({ eorPend := true, sofPend := true, commPend := true } : Events).eorPend = true ∧
      ({ eorPend := false, sofPend := true, commPend := true } : Events).sofPend = true := by decide

theorem pressed_matrixReady : MatrixReady pressed := ⟨by decide, by decide, by decide, by decide, by decide⟩
theorem witness_RowVisitFiltersItsCells : MainEnabled .scan pressed ∧ MatrixReady pressed :=
  ⟨by decide, pressed_matrixReady⟩
/-- Both clauses: row 0 of 2, and the last row. -/
theorem witness_ScanPosition :
    (MainEnabled .scan pressed ∧ MatrixReady pressed ∧ pressed.scan.scanRow + 1 < pressed.par.rows) ∧
    (let s := { pressed with scan := { pressed.scan with scanRow := 1 } };
      MainEnabled .scan s ∧ MatrixReady s ∧ s.scan.scanRow + 1 = s.par.rows) :=
  ⟨⟨by decide, pressed_matrixReady, by decide⟩,
    ⟨by decide, ⟨by decide, by decide, by decide, by decide, by decide⟩, by decide⟩⟩
theorem witness_KeyStateIsRebuilt : MainEnabled .state (matrixOf [[true, false, true, false], [true, true, true, true]]) := by
  decide
theorem witness_ReportIsSent :
    MainEnabled .send sending ∧ sending.ctl.enumState = .configured ∧ sending.ctl.idleRemaining = 0 ∧
      sending.kbd.cfg = true ∧ sending.kbd.rwal = true ∧ sending.kbd.fifo = [] ∧ sending.par.kbdEp ≠ 0 := by decide
/-- V-I7, V-I6, V-I8, and an endpoint not configured. -/
theorem witness_ReportIsHeldBack :
    (let s := atMain .send (ready p1);
      MainEnabled .send s ∧ s.ctl.enumState ≠ .configured) ∧
    (let s := { sending with ctl := { sending.ctl with idleRemaining := 1 } };
      MainEnabled .send s ∧ s.ctl.idleRemaining ≠ 0) ∧
    (let s := { sending with kbd := { sending.kbd with rwal := false } };
      MainEnabled .send s ∧ s.ctl.enumState = .configured ∧ s.ctl.idleRemaining = 0 ∧ s.kbd.rwal = false) ∧
    (let s := { sending with kbd := { sending.kbd with cfg := false } };
      MainEnabled .send s ∧ s.ctl.enumState = .configured ∧ s.ctl.idleRemaining = 0 ∧ s.kbd.cfg = false) := by decide

theorem witness_SetupArrives :
    (ramp 8).length = 8 ∧ (ready p1).ep0.cfg = true ∧ (State.initial p1).ep0.cfg = false := by decide
theorem witness_PacketsAreCollected :
    (let s := { ready p1 with ep0 := { (ready p1).ep0 with inPkt := some [], txReady := false } };
      s.ep0.cfg = true ∧ s.ep0.stallReq = false ∧ s.ep0.inPkt = some []) ∧
    (let s := { sending with kbd := { sending.kbd with inPkt := some (ramp 8), rwal := false } };
      s.kbd.cfg = true ∧ s.kbd.inPkt = some (ramp 8)) ∧
    (ready p1).ep0.inPkt = none ∧ (ready p1).kbd.inPkt = none := by decide
/-- The sizes 0 and 64, and the four ways the move is not possible. -/
theorem witness_OutPacketArrives :
    ([] : List Byte).length ≤ 64 ∧ (ramp 64).length ≤ 64 ∧
    (let s := ready p1;
      s.ep0.cfg = true ∧ s.ep0.rxPend = false ∧ s.ep0.setupPend = false ∧ s.ep0.stallReq = false) ∧
    (State.initial p1).ep0.cfg = false ∧ statusOut.ep0.rxPend = true ∧ starting.ep0.setupPend = true ∧
    ({ (ready p1).ep0 with stallReq := true } : ControlEp).stallReq = true := by decide +kernel
theorem witness_SignalsAndSwitches :
    (let s := { ready p1 with ep0 := { (ready p1).ep0 with stallReq := true } };
      s.ep0.cfg = true ∧ s.ep0.stallReq = true) ∧ (ready p1).ep0.stallReq = false ∧
    1 < (ready p1).par.rows ∧ 1 < (ready p1).par.cols ∧
      Grid.Shaped (ready p1).sw (ready p1).par.rows (ready p1).par.cols := by decide

theorem witness_FlagQueries : (ready p1).epSel = 0 ∧ onKeyboard.epSel = onKeyboard.par.kbdEp := by decide
theorem witness_FlagOperations :
    (ready p1).epSel = 0 ∧ (ready p1).ep0.txReady = true ∧ statusOut.epSel = 0 ∧ statusOut.ep0.rxPend = true ∧
    (ready p1).ep0.rxPend = false ∧ (let s := { ready p1 with ep0 := { (ready p1).ep0 with txReady := false } };
      s.epSel = 0 ∧ s.ep0.txReady = false) := by decide
/-- Each clause; the writes at 63 and 64 bytes, and at 7 and 8. -/
theorem witness_FifoAccesses :
    (fetched.epSel = 0 ∧ fetched.ep0.fifo = 0x80 :: [0, 0, 0, 0, 0, 2, 0]) ∧
    (let s := { onKeyboard with kbd := { onKeyboard.kbd with fifo := [8] } };
      s.epSel = s.par.kbdEp ∧ s.par.kbdEp ≠ 0 ∧ s.kbd.fifo = 8 :: []) ∧
    ((ready p1).epSel = 0 ∧ (ready p1).ep0.fifo = []) ∧
    (onKeyboard.epSel = onKeyboard.par.kbdEp ∧ onKeyboard.par.kbdEp ≠ 0 ∧ onKeyboard.kbd.fifo = []) ∧
    ((replying 63).epSel = 0 ∧ (replying 63).ep0.fifo.length < 64) ∧
    ((replying 64).epSel = 0 ∧ 64 ≤ (replying 64).ep0.fifo.length) ∧
    (let s := { onKeyboard with kbd := { onKeyboard.kbd with fifo := ramp 7 } };
      s.epSel = s.par.kbdEp ∧ s.par.kbdEp ≠ 0 ∧ s.kbd.fifo.length < 8) ∧
    (let s := { onKeyboard with kbd := { onKeyboard.kbd with fifo := ramp 8 } };
      s.epSel = s.par.kbdEp ∧ s.par.kbdEp ≠ 0 ∧ 8 ≤ s.kbd.fifo.length) := by decide +kernel
theorem witness_EndpointOperations :
    (ready p1).par.kbdEp ≠ 0 ∧ onKeyboard.par.kbdEp ≠ 0 ∧ onKeyboard.epSel = onKeyboard.par.kbdEp := by decide
theorem witness_WrongSelectionIsRefused : onKeyboard.epSel ≠ 0 ∧ (ready p1).epSel ≠ (ready p1).par.kbdEp := by decide
/-- The last row and the last column. -/
theorem witness_PinPrimitives :
    1 < (ready p1).par.rows ∧ 1 < (ready p1).par.cols ∧ (ready p1).pins.rowLvl.length = (ready p1).par.rows := by decide

/-- A move or step placed at this turn. -/
def placed (i : Instr) (s : State) : State := { s with sched := [i] }

/-- The clauses: a move that is taken, a step that faults, a move that is not possible, a step that is not enabled, an
operand out of range, a phase step with another endpoint selected, and a primitive. -/
theorem witness_StepTakesThePlacedMove :
    ((placed .sofTick (ready p1)).sched = [.sofTick] ∧ Instr.sofTick.isAgentStep = true ∧
      (after (exec .sofTick (passTurn (placed .sofTick (ready p1)))) fun t => t.ev.sofPend) = some true) ∧
    (Instr.hostIn0.isAgentStep = true ∧
      refusedAs .moveImpossible (exec .hostIn0 (passTurn (placed .hostIn0 (ready p1)))) = true) ∧
    (Instr.pStOut.isAgentStep = true ∧
      refusedAs .notEnabled (exec .pStOut (passTurn (placed .pStOut (ready p1)))) = true) ∧
    (Instr.pFxTx.isAgentStep = true ∧ faultedAs .fifoOverrun (exec .pFxTx (passTurn (placed .pFxTx (replying 64)))) = true) ∧
    ((Instr.keys 9 0 true).isAgentStep = true ∧
      refusedAs .badOperand (exec (.keys 9 0 true) (passTurn (placed (.keys 9 0 true) (ready p1)))) = true) ∧
    (refusedAs .wrongEndpoint (exec .pStOut (passTurn (placed .pStOut { statusOut with epSel := 1 }))) = true) ∧
    Instr.stall.isAgentStep = false := by decide
theorem witness_StepRunsTheFetchedRequest :
    decodeTableWord 64 0x0012000001000680 = some (.getDescriptorDevice false 0 0 18) := by decide

/-- The state of `replying 63` meets the invariant: the one case that stops is within it. -/
theorem replying_inv : Inv (replying 63) where
  params := by decide +kernel
  rowsInput := by decide
  rowLevels := by decide
  matrixShape := by decide
  counterShape := by decide
  switchShape := by decide
  counters := by decide
  scanRow := by decide
  cfgValue := by decide
  idleDuration := ⟨by decide, by decide⟩
  idleRemaining := by decide
  txReady := by decide
  fifoSize := by decide +kernel
  fifoEmpty := fun _ h => by cases h
  setupFifo := fun h => by cases h
  inPktSize := fun _ h => by cases h
  kbdFifo := by decide
  kbdInPkt := fun _ h => by cases h
  kbdRwal := fun h => by cases h
  ep0Selected := fun _ => rfl
  phase := ⟨by decide, by decide⟩

/-- The POR state of P1 with a frame tick placed meets the invariant. -/
theorem placed_inv : Inv (placed .sofTick (State.initial p1)) where
  params := by decide +kernel
  rowsInput := by decide
  rowLevels := by decide
  matrixShape := by decide
  counterShape := by decide
  switchShape := by decide
  counters := by decide
  scanRow := by decide
  cfgValue := by decide
  idleDuration := ⟨by decide, by decide⟩
  idleRemaining := by decide
  txReady := by decide
  fifoSize := by decide
  fifoEmpty := fun _ _ => rfl
  setupFifo := fun h => by cases h
  inPktSize := fun _ h => by cases h
  kbdFifo := by decide
  kbdInPkt := fun _ h => by cases h
  kbdRwal := fun h => by cases h
  ep0Selected := fun _ => rfl
  phase := trivial

theorem witness_StepKeepsTheInvariant :
    ∃ s t : State, Inv s ∧ step s = .next t ∧ t.ev.sofPend = true :=
  ⟨placed .sofTick (State.initial p1), _, placed_inv, rfl, rfl⟩
theorem witness_OnlyOverrunStops : Inv (replying 63) ∧ Inv (placed .sofTick (State.initial p1)) ∧
    DutyH7 (placed .sofTick (State.initial p1)) :=
  ⟨replying_inv, placed_inv, fun h => by cases h⟩
/-- A dispatch that begins, by the entry step and by a request, and one that moves on. -/
theorem witness_PhaseGraph :
    (Instr.comm ≠ .por ∧ (after (exec .comm fetched) fun t => t.disp.dphase) = some .fxTx) ∧
    (starting.disp.dphase = .idle ∧
      (after (exec (.getIdle 0 0 1) starting) fun t => t.disp.dphase) = some .fxTx) ∧
    (Instr.pStOut ≠ .por ∧ statusOut.disp.dphase ≠ .idle ∧
      (after (exec .pStOut statusOut) fun t => t.disp.dphase) = some .idle) := by decide
/-- Each of the five transitions happens. -/
theorem witness_EnumerationTransitions :
    (configured7.ctl.enumState = .configured ∧ (after (exec .por configured7) fun t => t.ctl.enumState) = some .default) ∧
    (let s := { configured7 with ev := { configured7.ev with eorPend := true } };
      (after (exec .eor s) fun t => t.ctl.enumState) = some .default) ∧
    (after (exec .pAddrAck (acknowledging true)) fun t => t.ctl.enumState) = some .addressed ∧
    (after (exec .pStIn (status .addressed (.cfg 1) true)) fun t => t.ctl.enumState) = some .configured ∧
    (after (exec .pStIn (status .configured (.cfg 0) true)) fun t => t.ctl.enumState) = some .addressed ∧
    (configured7.ctl.enumState = .configured ∧
      (after (exec .busReset configured7) fun t => t.ctl.enumState) = some .configured) := by decide
/-- Both registers change: by SET_IDLE, and by a reload. -/
theorem witness_IdleRegisterWrites :
    ((status .addressed (.idle 1020) true).ctl.idleDuration = 8 ∧
      (after (exec .pStIn (status .addressed (.idle 1020) true)) fun t => t.ctl.idleDuration) = some 1020) ∧
    (sending.ctl.idleRemaining = 0 ∧ (after (exec .reportSend sending) fun t => t.ctl.idleRemaining) = some 500) := by
  decide
/-- A write of each of the registers named. -/
theorem witness_WhoWritesWhat :
    (after (exec .pAddrAck (acknowledging true)) fun t => (t.uaddr, t.adden)) = some (5, true) ∧
    (after (exec .scanRow pressed) fun t => t.scan.matrix) = some [[true, false], [false, false]] ∧
    (after (exec .getState (matrixOf [[true, false, false, false], [false, false, false, false]])) fun t => t.krs.k0) =
      some 4 ∧
    (after (exec .comm fetched) fun t => t.disp.rq.type) = some 0x80 ∧
    (after (exec .pStIn (status .default (.cfg 1) true)) fun t => t.ctl.cfgValue) = some 1 ∧
    (after (exec .pStIn (status .default (.proto false) true)) fun t => t.ctl.protocolMode) = some false ∧
    (after (exec (.keys 0 0 true) (ready p1)) fun t => t.sw) = some [[true, false], [false, false]] := by decide

/-- P2 (a), at its second packet: 64 bytes and a zero-length packet owed. -/
def lastPacket : State :=
  let s := atPhase .inLoop (ready (params 1 1 [[4]] 128))
  { s with disp := { s.disp with xfSrc := .rpt, xfPtr := 64, xfRem := 64, xfZlp := true } }

theorem witness_TransferDeliversTheSource :
    let s := lastPacket
    s.disp.dphase = .inLoop ∧ s.epSel = 0 ∧ s.ep0.cfg = true ∧ s.ep0.setupPend = false ∧ s.ep0.rxPend = false ∧
    s.ep0.stallReq = false ∧ s.ep0.txReady = true ∧ s.ep0.fifo = [] ∧ s.disp.xfRem ≠ 0 ∧
    (s.disp.xfZlp = true → s.disp.xfRem.toNat % 64 = 0) ∧
    s.disp.xfPtr.toNat + s.disp.xfRem.toNat ≤ (sourceBytes s s.disp.xfSrc).length ∧
    (sourceBytes s s.disp.xfSrc).length ≤ 65535 := by decide +kernel

/-- V-X4 and V-X5: the hangs, with a move of the host placed. -/
theorem witness_HangsAreNeverLeft :
    (let s := placed .busReset (waiting .stOut);
      nextMove s ≠ .por ∧ (∃ t, step s = .next t) ∧ StuckAfterReset s) ∧
    (let s := placed (.hostOut []) (atPhase .stOut starting);
      nextMove s ≠ .por ∧ (∃ t, step s = .next t) ∧ StuckInStatusOut s) :=
  ⟨⟨by decide, ⟨_, rfl⟩, by decide, by decide, by decide, by decide, by decide⟩,
    ⟨by decide, ⟨_, rfl⟩, by decide, by decide, by decide⟩⟩

end Sys2Proof.Tests
end

section
/-! SUPPORT. The flag primitives and the endpoint each is defined for (spec/40 R157): which guard a call runs through,
and what the guard answers at another selection. -/

namespace Sys2Proof.Machine

/-- The counterpart of `onEp0_selected`. -/
theorem onEp0_unselected {s : State} (h : s.epSel ≠ 0) (k : State → Result) :
    onEp0 k s = .refused .wrongEndpoint := if_neg h

theorem onKbdEp_unselected {s : State} (h : s.epSel ≠ s.par.kbdEp) (k : State → Result) :
    onKbdEp k s = .refused .wrongEndpoint := if_neg h

@[simp] theorem exec_isSetupPending (s : State) :
    exec .isSetupPending s = onEp0 (fun s => .next (reply (.bit (isSetupPending s)) s)) s := rfl

@[simp] theorem exec_isSendReady (s : State) :
    exec .isSendReady s = onEp0 (fun s => .next (reply (.bit (isSendReady s)) s)) s := rfl

@[simp] theorem exec_isReceivePending (s : State) :
    exec .isReceivePending s = onEp0 (fun s => .next (reply (.bit (isReceivePending s)) s)) s := rfl

@[simp] theorem exec_clearSetupFlag (s : State) :
    exec .clearSetupFlag s = onEp0 (fun s => .next (clearSetupFlag s)) s := rfl

@[simp] theorem exec_clearSendFlag (s : State) :
    exec .clearSendFlag s = onEp0 (fun s => .next (clearSendFlag s)) s := rfl

@[simp] theorem exec_clearReceiveFlag (s : State) :
    exec .clearReceiveFlag s = onEp0 (fun s => .next (clearReceiveFlag s)) s := rfl

@[simp] theorem exec_stall (s : State) : exec .stall s = onEp0 (fun s => .next (stall s)) s := rfl

@[simp] theorem exec_kbdReady (s : State) :
    exec .kbdReady s = onKbdEp (fun s => .next (reply (.bit (kbdReady s)) s)) s := rfl

@[simp] theorem exec_kbdRearm (s : State) : exec .kbdRearm s = onKbdEp (fun s => .next (kbdRearm s)) s := rfl

/-- Settles O48: each of the nine primitives runs through the guard of its own endpoint, `onEp0` or `onKbdEp`. -/
theorem wrongSelectionIsRefused : Obligations.WrongSelectionIsRefused := by
  intro s
  constructor
  · intro hsel i hi
    simp only [List.mem_cons, List.not_mem_nil, or_false] at hi
    obtain rfl | rfl | rfl | rfl | rfl | rfl | rfl := hi <;> simp [onEp0_unselected hsel]
  · intro hsel i hi
    simp only [List.mem_cons, List.not_mem_nil, or_false] at hi
    obtain rfl | rfl := hi <;> simp [onKbdEp_unselected hsel]

end Sys2Proof.Machine
end

section
/-! SUPPORT. The two ways into a stall of endpoint 0: a communication event with no SETUP pending (spec/41 R181) and
a request that no row selects (R185). -/

namespace Sys2Proof.Machine

theorem exec_unmatched (ty rq : Byte) (v x l : Word16) (s : State) :
    exec (.unmatched ty rq v x l) s =
      startRequest (fun s => raiseStall .unsupported (clearSetupFlag s)) s := rfl

/-- The counterpart of `comm_eq_next` for an event with no SETUP pending. -/
theorem exec_comm_spurious {s : State} (hen : CommEnabled s) (hsetup : s.ep0.setupPend = false) :
    exec .comm s = .next (raiseStall .spurious (selectEndpoint 0 (takeEvent .comm s))) := by
  have hpending : isSetupPending (selectEndpoint 0 (takeEvent .comm s)) ≠ true := by
    simp [isSetupPending, hsetup]
  change execComm s = _
  unfold execComm
  rw [if_pos hen]
  exact if_neg hpending

/-- Settles O15: the handler runs where the entry step starts it, and consuming the SETUP and raising the stall write
endpoint 0 only. -/
theorem unmatchedRequestsStall : Obligations.UnmatchedRequestsStall := by
  intro ty rq v x l s hstarts
  rw [exec_unmatched, startRequest_next hstarts]
  rfl

/-- Settles O16: taking the event, selecting endpoint 0 and raising the stall are all the entry step does. -/
theorem spuriousEventStalls : Obligations.SpuriousEventStalls := by
  intro s hen hsetup
  rw [exec_comm_spurious hen hsetup]
  rfl

end Sys2Proof.Machine
end

section
/-! SUPPORT. The status stage of a device-to-host request (spec/43 R245): the step that waits for the OUT packet. -/

namespace Sys2Proof.Machine

/-- The converse of `pStOut_eq_next`: where the step is enabled and endpoint 0 selected, it is taken. -/
theorem exec_pStOut_enabled {s : State} (hen : StOutEnabled s) (hsel : s.epSel = 0) :
    exec .pStOut s = .next (endDispatch (clearReceiveFlag s)) := by
  change execPStOut s = _
  unfold execPStOut
  rw [if_pos hen, onEp0_selected hsel]

/-- Settles O24: clearing the OUT packet writes endpoint 0 only, and the return from the dispatch writes the phase
only. -/
theorem statusOutEndsTheDispatch : Obligations.StatusOutEndsTheDispatch := by
  intro s hphase hpending hsel
  rw [exec_pStOut_enabled ⟨hphase, hpending⟩ hsel]
  rfl

end Sys2Proof.Machine
end

section
/-! SUPPORT. The decoder and the encoder are inverse to each other (spec/30 R100 to R110): the fields of a packet, the
keys of the two tables, and the row of the decoded request. -/

namespace Sys2Proof

/-- Decoding the packet of five fields decodes the fields. -/
theorem decode_packet (ty rq : Byte) (v x l : Word16) :
    decode (packet ty rq v x l) = .ok (decodeRequest ⟨ty, rq, v, x, l⟩) := by
  simp [decode, packet, assemble]

/-- Packing the fields of eight bytes gives the bytes back. -/
theorem packet_assemble (b0 b1 b2 b3 b4 b5 b6 b7 : Byte) :
    let r := assemble b0 b1 b2 b3 b4 b5 b6 b7
    packet r.type r.req r.value r.index r.length = [b0, b1, b2, b3, b4, b5, b6, b7] := by
  simp [packet, assemble]

/-- A request with no row's key is unmatched (R110). -/
theorem decodeRequest_of_not_mem {r : SetupRequest} (h : (r.type, r.req) ∉ rowKeys) :
    decodeRequest r = .unmatched r.type r.req r.value r.index r.length := by
  simp only [rowKeys, List.mem_append, List.mem_cons, Prod.mk.injEq, List.not_mem_nil, or_false, not_or] at h
  simp only [decodeRequest, classLookup, standardLookup, h, if_false]

/-- The operation `i` is well-formed and has the fields of `r` as its packet. -/
structure RowOf (r : SetupRequest) (i : Instr) : Prop where
  encode : encode i = some (packet r.type r.req r.value r.index r.length)
  wf : ∀ p, i.wf p = true

/-- The five descriptor rows (R106, R108), by the high byte of wValue. -/
theorem descriptorRow_rowOf (itf : Bool) (v x l : Word16) :
    RowOf ⟨descriptorType itf, 0x06, v, x, l⟩ (descriptorRow itf ⟨descriptorType itf, 0x06, v, x, l⟩) := by
  have packed {t : Byte} (h : hiByte v = t) : u16 (loByte v) t = v := by rw [← h, u16_loByte_hiByte]
  unfold descriptorRow
  dsimp only
  split
  case isTrue h => exact ⟨by rw [encode, packed h], fun p => rfl⟩
  split
  case isTrue h => exact ⟨by rw [encode, packed h], fun p => rfl⟩
  split
  case isTrue h => exact ⟨by rw [encode, packed h], fun p => rfl⟩
  split
  case isTrue h => exact ⟨by rw [encode, packed h], fun p => rfl⟩
  case isFalse h1 h2 h3 h4 =>
    have hother : hiByte v ∉ supportedTypes := by
      simp only [supportedTypes, List.mem_cons, List.not_mem_nil, h1, h2, h3, h4, or_self, not_false_iff]
    exact ⟨by rw [encode, packed rfl], fun p => by simp [Instr.wf, hother]⟩

/-- A request whose key is in a table decodes to a row of its own. -/
theorem decodeRequest_rowOf_of_mem :
    ∀ k ∈ rowKeys, ∀ v x l, RowOf ⟨k.1, k.2, v, x, l⟩ (decodeRequest ⟨k.1, k.2, v, x, l⟩) := by
  simp only [rowKeys, List.cons_append, List.nil_append, List.forall_mem_cons]
  refine ⟨?_, ?_, ?_, ?_, ?_, ?_, ?_, ?_, ?_, ?_, ?_, ?_, ?_, ?_, ?_, ?_, descriptorRow_rowOf false,
    descriptorRow_rowOf true, ?_, ?_, ?_, ?_, ?_, List.forall_mem_nil _⟩ <;> exact fun v x l => ⟨rfl, fun p => rfl⟩

/-- Every request decodes to a well-formed operation whose packet is the request (R109). -/
theorem decodeRequest_rowOf (r : SetupRequest) : RowOf r (decodeRequest r) := by
  by_cases h : (r.type, r.req) ∈ rowKeys
  · exact decodeRequest_rowOf_of_mem _ h r.value r.index r.length
  · rw [decodeRequest_of_not_mem h]
    exact ⟨rfl, fun p => by simp [Instr.wf, h]⟩

/-- A request is unmatched exactly when its key is in neither table. -/
theorem decodeRequest_eq_unmatched_iff (r : SetupRequest) :
    (r.type, r.req) ∉ rowKeys ↔ decodeRequest r = .unmatched r.type r.req r.value r.index r.length := by
  refine ⟨decodeRequest_of_not_mem, fun h => ?_⟩
  have hwf := (decodeRequest_rowOf r).wf Config.defaultParams
  rw [h] at hwf
  simpa [Instr.wf] using hwf

/-- Type, recipient and code of the keys of the two tables (R102, R107, R108). -/
theorem rowKeys_bounds : ∀ k ∈ rowKeys,
    (k.1.extractLsb' 5 2).toNat < 2 ∧ (k.1.extractLsb' 0 5).toNat < 3 ∧
    ((k.1.extractLsb' 5 2).toNat = 1 →
      (k.1.extractLsb' 0 5).toNat = 1 ∧ k.2 ∈ [(0x01 : Byte), 0x02, 0x03, 0x09, 0x0A, 0x0B]) ∧
    ((k.1.extractLsb' 5 2).toNat = 0 → k.2 ∉ [(0x02 : Byte), 0x04, 0x07] ∧ k.2.toNat < 0x0D) := by
  intro k hk
  fin_cases hk <;> decide

/-- The GET_DESCRIPTOR keys lead to the five descriptor rows, for both recipients. -/
theorem decodeRequest_getDescriptor (itf : Bool) (v x l : Word16) :
    decodeRequest ⟨descriptorType itf, 0x06, v, x, l⟩ = descriptorRow itf ⟨descriptorType itf, 0x06, v, x, l⟩ := by
  cases itf <;> rfl

/-- Settles O1: each row's key selects the row, a descriptor's type byte its descriptor row, and an unmatched request
has the key of no row. -/
theorem decodeInvertsEncode : Obligations.DecodeInvertsEncode := by
  intro p i bytes hwf henc
  cases i
  case getDescriptorDevice | getDescriptorConfiguration | getDescriptorHid | getDescriptorReport =>
    cases henc
    rw [decode_packet, decodeRequest_getDescriptor]
    simp [descriptorRow]
  case getDescriptorOther itf t d x l =>
    cases henc
    have ht : t ∉ supportedTypes := by simpa [Instr.wf] using hwf
    simp only [supportedTypes, List.mem_cons, List.not_mem_nil, or_false, not_or] at ht
    rw [decode_packet, decodeRequest_getDescriptor]
    simp only [descriptorRow, hiByte_u16, loByte_u16, ht, if_false]
  case unmatched ty rq v x l =>
    cases henc
    rw [decode_packet, decodeRequest_of_not_mem (by simpa [Instr.wf] using hwf)]
  all_goals cases henc
  all_goals exact decode_packet ..

/-- Settles O2: the decoded request has the packet (`decodeRequest_rowOf`), and no other has, because decoding undoes
encoding. -/
theorem decodeIsTotalOnPackets : Obligations.DecodeIsTotalOnPackets := by
  intro p bytes
  constructor
  · intro hlen
    match bytes, hlen with
    | [b0, b1, b2, b3, b4, b5, b6, b7], _ =>
      have hrow := decodeRequest_rowOf (assemble b0 b1 b2 b3 b4 b5 b6 b7)
      refine ⟨_, rfl, hrow.encode.trans (congrArg some (packet_assemble ..)), hrow.wf p,
        Machine.decodeRequest_isRequest _, fun j hwf henc => ?_⟩
      have hj := decodeInvertsEncode p j _ hwf henc
      exact (Except.ok.inj hj).symm
  · intro hlen
    unfold decode
    split
    · exact absurd rfl hlen
    · rfl

/-- Settles O3: the request types of the class table are those of no standard row. -/
theorem noPacketMatchesBothTables : Obligations.NoPacketMatchesBothTables := by
  intro r
  by_cases h : r.type = 0xA1 ∨ r.type = 0x21
  · right
    obtain h | h := h <;> simp [standardLookup, h]
  · left
    rw [not_or] at h
    simp only [classLookup, h, false_and, if_false]

/-- Settles O4: the key decides, and the keys of the tables stay inside the ranges the clauses exclude. -/
theorem unmatchedPackets : Obligations.UnmatchedPackets := by
  intro r
  have hkey := (decodeRequest_eq_unmatched_iff r).1
  have hbounds := rowKeys_bounds (r.type, r.req)
  refine ⟨decodeRequest_eq_unmatched_iff r, fun h => hkey fun hm => ?_, fun h => hkey fun hm => ?_,
    fun h h' => hkey fun hm => ?_, fun h h' => hkey fun hm => ?_, fun h h' => hkey fun hm => ?_⟩
  all_goals obtain ⟨htyp, hrcp, hclass, hstd⟩ := hbounds hm
  · exact Nat.not_lt.mpr h htyp
  · exact Nat.not_lt.mpr h hrcp
  · exact h' (hclass h).1
  · exact h' (hclass h).2
  · obtain ⟨hcode, hlt⟩ := hstd h
    obtain h' | h' := h'
    · exact hcode h'
    · exact Nat.not_lt.mpr h' hlt

/-- Settles O5: the words are evaluated. -/
theorem sampleWordsDecode : Obligations.SampleWordsDecode := by
  unfold Obligations.SampleWordsDecode
  decide

end Sys2Proof
end

section
/-! SUPPORT. The phase steps of the dispatcher where they are enabled (spec/41 R189, spec/42 R204, R213, spec/43 R241 to
R246, spec/44 R263), and where they are not. -/

namespace Sys2Proof.Machine

/-! ## The fixed reply -/

/-- P_FX_TX where it is enabled (R241): the reply joins what the FIFO holds, if there is room. -/
theorem exec_pFxTx_enabled {s : State} (hen : SendPhaseEnabled .fxTx s) (hsel : s.epSel = 0)
    (hfull : s.ep0.fifo.length ≤ 64) :
    exec .pFxTx s = if s.ep0.fifo.length + s.disp.fx.length ≤ 64 then
      .next { s with
        ep0 := { s.ep0 with inPkt := some (s.ep0.fifo ++ s.disp.fx), fifo := [], txReady := false }
        disp := { s.disp with dphase := .stOut } }
      else .fault .fifoOverrun := by
  change execPFxTx s = _
  unfold execPFxTx
  rw [if_pos hen, onEp0_selected hsel, fifoWriteAll_ep0 _ _ hsel hfull]
  split <;> rfl

/-- Settles O19: the reply fits beside what the FIFO holds. -/
theorem fixedReplyIsCommitted : Obligations.FixedReplyIsCommitted := by
  intro s hphase hready hsel hfits
  rw [exec_pFxTx_enabled ⟨hphase, hready⟩ hsel (by omega), if_pos hfits]

/-- Settles O20: the reply does not fit. -/
theorem fixedReplyOverruns : Obligations.FixedReplyOverruns := by
  intro s hphase hready hsel hfull hover
  rw [exec_pFxTx_enabled ⟨hphase, hready⟩ hsel hfull, if_neg (by omega)]

/-! ## The chunked transfer -/

/-- P_IN_LOOP where it is enabled (R244): SETUP first, then OUT, then a packet. -/
theorem exec_pInLoop_enabled {s : State} (hen : InLoopEnabled s) (hsel : s.epSel = 0) :
    exec .pInLoop s = if s.ep0.setupPend = true then .next (endDispatch s)
      else if s.ep0.rxPend = true then .next (setPhase .stOut s) else sendChunk s := by
  change execPInLoop s = _
  unfold execPInLoop
  rw [if_pos hen, onEp0_selected hsel]
  rfl

/-- A read inside a space gives the bytes there (R75). -/
theorem memRead_inside {space : List Byte} {addr n : Nat} (h : addr + n ≤ space.length) :
    memRead space addr n = some ((space.drop addr).take n) := if_pos h

/-- The send branch with the FIFO empty (R244): the next bytes of the source are committed as one packet. -/
theorem sendChunk_next {s : State} (hsel : s.epSel = 0) (hfifo : s.ep0.fifo = [])
    (hin : s.disp.xfPtr.toNat + min s.disp.xfRem.toNat 64 ≤ (sourceBytes s s.disp.xfSrc).length) :
    sendChunk s = .next { s with
      ep0 := { s.ep0 with
        inPkt := some (((sourceBytes s s.disp.xfSrc).drop s.disp.xfPtr.toNat).take (min s.disp.xfRem.toNat 64))
        txReady := false }
      disp := advanceXfer (min s.disp.xfRem.toNat 64) s.disp } := by
  have hlen : s.ep0.fifo.length = 0 := by rw [hfifo]; rfl
  have hroom : s.ep0.fifo.length +
      (((sourceBytes s s.disp.xfSrc).drop s.disp.xfPtr.toNat).take (min s.disp.xfRem.toNat 64)).length ≤ 64 := by
    rw [hlen, List.length_take]; omega
  have hread := memRead_inside hin
  unfold sendChunk
  dsimp only
  rw [hread]
  dsimp only
  rw [fifoWriteAll_ep0 _ _ hsel (by omega), if_pos hroom]
  simp [clearSendFlag, hfifo]

/-- P_IN_LOOP with neither a SETUP nor an OUT pending sends the next packet. -/
theorem exec_pInLoop_send {s : State} (hphase : s.disp.dphase = .inLoop) (hsel : s.epSel = 0)
    (hsetup : s.ep0.setupPend = false) (hrx : s.ep0.rxPend = false) (hready : s.ep0.txReady = true) :
    exec .pInLoop s = sendChunk s := by
  rw [exec_pInLoop_enabled ⟨hphase, .inl hready⟩ hsel, if_neg (by simp [hsetup]), if_neg (by simp [hrx])]

/-- The transfer registers after a packet, in the words of R244. -/
theorem advanceXfer_eq (n : Nat) (d : Dispatcher) (hn : n ≤ d.xfRem.toNat) :
    advanceXfer n d = { d with
      xfPtr := BitVec.ofNat 16 (d.xfPtr.toNat + n)
      xfRem := BitVec.ofNat 16 (d.xfRem.toNat - n)
      xfZlp := decide (n ≠ 0) && d.xfZlp
      dphase := if d.xfRem.toNat = n ∧ (n = 0 ∨ d.xfZlp = false) then .stOut else .inLoop } := by
  have hrem : d.xfRem.toNat - n = 0 ↔ d.xfRem.toNat = n := by omega
  unfold advanceXfer
  by_cases h0 : n = 0 <;> simp [h0, hrem]

/-- Settles O21: the two tests come before the send. -/
theorem transferLoopExitsEarly : Obligations.TransferLoopExitsEarly := by
  intro s hphase hsel
  constructor
  · intro hsetup
    rw [exec_pInLoop_enabled ⟨hphase, .inr (.inr hsetup)⟩ hsel, if_pos hsetup]
    rfl
  · intro hsetup hrx
    rw [exec_pInLoop_enabled ⟨hphase, .inr (.inl hrx)⟩ hsel, if_neg (by simp [hsetup]), if_pos hrx]
    rfl

/-- Settles O22: the send branch reads inside the source and finds the FIFO empty. -/
theorem transferLoopSendsOnePacket : Obligations.TransferLoopSendsOnePacket := by
  intro s hphase hsel hsetup hrx hready hfifo n hin
  rw [exec_pInLoop_send hphase hsel hsetup hrx hready, sendChunk_next hsel hfifo hin,
    advanceXfer_eq _ _ (Nat.min_le_left ..)]

/-- The bytes of each source are as many as its row says, for parameters of the sizes of R7. -/
theorem sourceBytes_length {s : State} (h : s.par.wf) (src : XferSource) :
    (sourceBytes s src).length = sourceLen s src := by
  obtain ⟨-, -, -, -, -, hdev, hcfg, -, -⟩ := h
  cases src with
  | dev => exact hdev
  | cfgTree => exact hcfg
  | cfgHid =>
    rw [sourceBytes, List.length_take, List.length_drop, hcfg]
    rfl
  | rpt => rfl
  | krs => rfl

/-- Settles O23: taking a source's whole length leaves it as it is. -/
theorem transferSources : Obligations.TransferSources := by
  intro s h
  refine ⟨?_, ?_, rfl, rfl, rfl, sourceBytes_length h⟩
  · exact (List.take_of_length_le (sourceBytes_length h .dev).le).symm
  · exact (List.take_of_length_le (sourceBytes_length h .cfgTree).le).symm

/-! ## The status stage of a host-to-device request -/

/-- P_ST_IN where it is enabled (R246). -/
theorem exec_pStIn_enabled {s : State} (hen : SendPhaseEnabled .stIn s) (hsel : s.epSel = 0) :
    exec .pStIn s = .next (applyPost (clearSendFlag s)) := by
  change execPStIn s = _
  unfold execPStIn
  rw [if_pos hen, onEp0_selected hsel]

/-- Configuring the keyboard endpoint (R154). -/
theorem configureEndpoint_kbd_eq {e : EpNum} (h : e ≠ 0) (s : State) :
    configureEndpoint e s = { afterConfigure s with kbd := configuredKbd (cfgAnswer s) s.kbd } := if_neg h

/-- APPLY_CFG(1) in Addressed configures the keyboard endpoint, and with it the state (R214). -/
theorem applyCfg_configure {s : State} (h : s.ctl.enumState = .addressed) (hkbd : s.par.kbdEp ≠ 0) :
    applyCfg 1 s = { afterConfigure s with
      kbd := configuredKbd (cfgAnswer s) s.kbd
      ctl := if cfgAnswer s = true then
          { s.ctl with cfgValue := 1, enumState := .configured, idleDuration := 500, idleRemaining := 0 }
        else { s.ctl with cfgValue := 1 } } := by
  unfold applyCfg
  dsimp only
  rw [if_pos ⟨rfl, h⟩, configureEndpoint_kbd_eq hkbd]
  split <;> rfl

/-- APPLY_CFG(0) in Configured goes back to Addressed (R214). -/
theorem applyCfg_deconfigure {s : State} (h : s.ctl.enumState = .configured) :
    applyCfg 0 s = { s with ctl := { s.ctl with cfgValue := 0, enumState := .addressed } } := by
  unfold applyCfg
  dsimp only
  rw [if_neg (by simp), if_pos ⟨rfl, h⟩]

/-- APPLY_CFG writes only `cfg_value` otherwise (R214). -/
theorem applyCfg_keep {s : State} {v : Byte} (h1 : ¬(v = 1 ∧ s.ctl.enumState = .addressed))
    (h0 : ¬(v = 0 ∧ s.ctl.enumState = .configured)) :
    applyCfg v s = { s with ctl := { s.ctl with cfgValue := v } } := by
  unfold applyCfg
  dsimp only
  rw [if_neg h1, if_neg h0]

/-- P_ST_IN with a configuration latched (R213). -/
theorem exec_pStIn_cfg {s : State} {v : Byte} (hen : SendPhaseEnabled .stIn s) (hsel : s.epSel = 0)
    (hpost : s.disp.post = .cfg v) :
    exec .pStIn s = .next (endDispatch (applyCfg v (clearSendFlag s))) := by
  rw [exec_pStIn_enabled hen hsel]
  unfold applyPost
  rw [clearSendFlag_disp, hpost]

/-- P_ADDR_ACK where it is enabled (R204). -/
theorem exec_pAddrAck_enabled {s : State} {a : UsbAddr} (hen : SendPhaseEnabled .addrAck s) (hsel : s.epSel = 0)
    (hpost : s.disp.post = .addr a) :
    exec .pAddrAck s = .next { s with
      uaddr := a, adden := true, hostTrace := s.hostTrace ++ [.addr a]
      ctl := { s.ctl with enumState := .addressed }, disp := { s.disp with dphase := .idle } } := by
  change execPAddrAck s = _
  unfold execPAddrAck
  rw [if_pos hen, onEp0_selected hsel, hpost]
  rfl

/-- P_OUT_DRAIN where it is enabled (R263). -/
theorem exec_pOutDrain_enabled {s : State} (hen : OutDrainEnabled s) (hsel : s.epSel = 0) :
    exec .pOutDrain s = .next (if s.ep0.setupPend = true then endDispatch s else drainPacket s) := by
  change execPOutDrain s = _
  unfold execPOutDrain
  rw [if_pos hen, onEp0_selected hsel]
  exact (apply_ite Host.Outcome.next ..).symm

/-- Settles O25: the latched effect is the one the step applies. -/
theorem statusInAppliesTheEffect : Obligations.StatusInAppliesTheEffect := by
  intro s hphase hready hsel
  rw [exec_pStIn_enabled ⟨hphase, hready⟩ hsel]
  refine ⟨fun h => ?_, fun d h => ?_, fun b h => ?_, fun a h => ?_⟩
  all_goals
    unfold applyPost
    rw [clearSendFlag_disp, h]
    rfl

/-- Settles O26: the rows of APPLY_CFG. -/
theorem configurationInEveryState : Obligations.ConfigurationInEveryState := by
  intro s v hphase hready hsel hpost hkbd t
  have hstep := exec_pStIn_cfg ⟨hphase, hready⟩ hsel hpost
  refine ⟨fun hv he hok => ?_, fun hv he hok => ?_, fun hv he => ?_, fun hv he => ?_, fun hv he => ?_⟩
  all_goals
    subst hv
    rw [hstep]
  · have hok' : cfgAnswer (clearSendFlag s) = true := hok
    rw [applyCfg_configure (s := clearSendFlag s) he hkbd, hok', if_pos rfl]
    rfl
  · have hok' : cfgAnswer (clearSendFlag s) = false := hok
    rw [applyCfg_configure (s := clearSendFlag s) he hkbd, hok', if_neg (by decide)]
    rfl
  · rw [applyCfg_keep (s := clearSendFlag s) (v := 1) (fun h => he h.2) (fun h => absurd h.1 (by decide))]
    rfl
  · rw [applyCfg_deconfigure (s := clearSendFlag s) he]
    rfl
  · rw [applyCfg_keep (s := clearSendFlag s) (v := 0) (fun h => absurd h.1 (by decide)) (fun h => he h.2)]
    rfl

/-- Settles O27: the step's guard is the readiness of the endpoint. -/
theorem addressIsWrittenAfterTheStatusStage : Obligations.AddressIsWrittenAfterTheStatusStage := by
  intro s a hphase hpost hsel
  refine ⟨fun hready => exec_pAddrAck_enabled ⟨hphase, hready⟩ hsel hpost, fun hready => if_neg ?_⟩
  simp [isSendReady, hready]

/-- Settles O28: the three branches of the step. -/
theorem reportDataIsDrained : Obligations.ReportDataIsDrained := by
  intro s hphase hsel
  refine ⟨fun hsetup => ?_, fun hsetup hrx hend => ?_, fun hsetup hrx hrem hn => ?_⟩
  · rw [exec_pOutDrain_enabled ⟨hphase, .inr hsetup⟩ hsel, if_pos hsetup]
    rfl
  · rw [exec_pOutDrain_enabled ⟨hphase, .inl hrx⟩ hsel, if_neg (by simp [hsetup])]
    unfold drainPacket
    exact congrArg Host.Outcome.next (if_pos hend)
  · rw [exec_pOutDrain_enabled ⟨hphase, .inl hrx⟩ hsel, if_neg (by simp [hsetup])]
    unfold drainPacket
    dsimp only
    rw [if_neg (not_or.mpr ⟨hrem, Nat.not_lt.mpr hn⟩), ← hphase]
    rfl

/-- Settles O29: each step is guarded by its phase and its flag. -/
theorem waitsHold : Obligations.WaitsHold := by
  intro s
  refine ⟨fun h => if_neg ?_, fun h => if_neg ?_, fun h => if_neg ?_, fun h => if_neg ?_, fun h => if_neg ?_,
    fun h => if_neg ?_⟩
  all_goals
    rintro ⟨hphase, hflag⟩
    simp_all [isSendReady, isReceivePending, isSetupPending]

end Sys2Proof.Machine
end

section
/-! SUPPORT. The environment's moves (spec/40 R160 to R168), each as its precondition and the state it leads to. -/

namespace Sys2Proof.Machine

/-- A guarded operation answers a next state only where its guard holds. -/
@[simp] theorem guarded_eq_next_iff {c : Prop} [Decidable c] {o : Result} {r : Refusal} {t : State} :
    (if c then o else .refused r) = .next t ↔ c ∧ o = .next t := by
  by_cases hc : c <;> simp [hc]

theorem exec_hostSetup (b : List Byte) (s : State) :
    exec (.hostSetup b) s =
      if b.length = 8 then
        if s.ep0.cfg = true then
          .next { s with
            ep0 := { s.ep0 with
              fifo := b, setupPend := true, stallReq := false, inPkt := none, txReady := true, rxPend := false }
            ev := { s.ev with commPend := true }
            hostTrace := s.hostTrace ++ [.setup b] }
        else .refused .moveImpossible
      else .refused .badOperand := rfl

theorem exec_hostIn0_some {s : State} {p : List Byte} (hpkt : s.ep0.inPkt = some p) :
    exec .hostIn0 s =
      if s.ep0.cfg = true ∧ s.ep0.stallReq = false then
        .next { s with ep0 := { s.ep0 with inPkt := none, txReady := true }, hostTrace := s.hostTrace ++ [.in0 p] }
      else .refused .moveImpossible := by
  change execHostIn0 s = _
  unfold execHostIn0
  rw [hpkt]
  rfl

theorem exec_hostIn0_none {s : State} (hpkt : s.ep0.inPkt = none) :
    exec .hostIn0 s = .refused .moveImpossible := by
  change execHostIn0 s = _
  unfold execHostIn0
  rw [hpkt]

theorem exec_hostOut (p : List Byte) (s : State) :
    exec (.hostOut p) s =
      if p.length ≤ 64 then
        if OutPossible s then
          .next { s with ep0 := { s.ep0 with fifo := p, rxPend := true }, hostTrace := s.hostTrace ++ [.out0 p] }
        else .refused .moveImpossible
      else .refused .badOperand := rfl

theorem exec_hostInk_some {s : State} {p : List Byte} (hpkt : s.kbd.inPkt = some p) :
    exec .hostInk s =
      if s.kbd.cfg = true then
        .next { s with kbd := { s.kbd with inPkt := none, rwal := true }, hostTrace := s.hostTrace ++ [.inK p] }
      else .refused .moveImpossible := by
  change execHostInk s = _
  unfold execHostInk
  rw [hpkt]
  rfl

theorem exec_hostInk_none {s : State} (hpkt : s.kbd.inPkt = none) :
    exec .hostInk s = .refused .moveImpossible := by
  change execHostInk s = _
  unfold execHostInk
  rw [hpkt]

theorem exec_busReset (s : State) :
    exec .busReset s = .next { s with
      uaddr := 0
      adden := false
      ep0 := { cfg := false, setupPend := false, txReady := false, rxPend := false, stallReq := false, fifo := [],
               inPkt := none }
      kbd := { cfg := false, rwal := false, fifo := [], inPkt := none }
      ev := { s.ev with eorPend := true }
      hostTrace := s.hostTrace ++ [.reset] } := rfl

theorem exec_sofTick (s : State) : exec .sofTick s = .next { s with ev := { s.ev with sofPend := true } } := rfl

theorem exec_spuriousComm (s : State) :
    exec .spuriousComm s = .next { s with ev := { s.ev with commPend := true } } := rfl

theorem exec_keys (r c : Nat) (v : Bool) (s : State) :
    exec (.keys r c v) s =
      if r < s.par.rows ∧ c < s.par.cols then .next { s with sw := gridSet s.sw r c v }
      else .refused .badOperand := rfl

theorem exec_hostStalled (s : State) :
    exec .hostStalled s =
      if StalledPossible s then .next { s with hostTrace := s.hostTrace ++ [.stall0] }
      else .refused .moveImpossible := rfl

/-- The state after a move of the environment that is possible on `s`, one constructor for each move. -/
inductive EnvStep (s : State) : Instr → State → Prop
  | setup {b : List Byte} (hb : b.length = 8) (hcfg : s.ep0.cfg = true) :
      EnvStep s (.hostSetup b) { s with
        ep0 := { s.ep0 with
          fifo := b, setupPend := true, stallReq := false, inPkt := none, txReady := true, rxPend := false }
        ev := { s.ev with commPend := true }
        hostTrace := s.hostTrace ++ [.setup b] }
  | in0 {p : List Byte} (hcfg : s.ep0.cfg = true) (hpkt : s.ep0.inPkt = some p) :
      EnvStep s .hostIn0 { s with
        ep0 := { s.ep0 with inPkt := none, txReady := true }, hostTrace := s.hostTrace ++ [.in0 p] }
  | out {p : List Byte} (hp : p.length ≤ 64) (hpossible : OutPossible s) :
      EnvStep s (.hostOut p) { s with
        ep0 := { s.ep0 with fifo := p, rxPend := true }, hostTrace := s.hostTrace ++ [.out0 p] }
  | busReset : EnvStep s .busReset { s with
      uaddr := 0
      adden := false
      ep0 := { cfg := false, setupPend := false, txReady := false, rxPend := false, stallReq := false, fifo := [],
               inPkt := none }
      kbd := { cfg := false, rwal := false, fifo := [], inPkt := none }
      ev := { s.ev with eorPend := true }
      hostTrace := s.hostTrace ++ [.reset] }
  | sofTick : EnvStep s .sofTick { s with ev := { s.ev with sofPend := true } }
  | spuriousComm : EnvStep s .spuriousComm { s with ev := { s.ev with commPend := true } }
  | inK {p : List Byte} (hcfg : s.kbd.cfg = true) (hpkt : s.kbd.inPkt = some p) :
      EnvStep s .hostInk { s with
        kbd := { s.kbd with inPkt := none, rwal := true }, hostTrace := s.hostTrace ++ [.inK p] }
  | keys {r c : Nat} {v : Bool} : EnvStep s (.keys r c v) { s with sw := gridSet s.sw r c v }
  | stalled : EnvStep s .hostStalled { s with hostTrace := s.hostTrace ++ [.stall0] }

/-- What a move of the environment can do. -/
theorem envMove_eq_next {i : Instr} (hi : i.format = .envMove) {s t : State} (h : exec i s = .next t) :
    EnvStep s i t := by
  cases i
  case hostSetup b =>
    simp only [exec_hostSetup, guarded_eq_next_iff, Host.Outcome.next.injEq] at h
    obtain ⟨hb, hcfg, rfl⟩ := h
    exact .setup hb hcfg
  case hostIn0 =>
    cases hpkt : s.ep0.inPkt with
    | none =>
      rw [exec_hostIn0_none hpkt] at h
      cases h
    | some p =>
      simp only [exec_hostIn0_some hpkt, guarded_eq_next_iff, Host.Outcome.next.injEq] at h
      obtain ⟨⟨hcfg, -⟩, rfl⟩ := h
      exact .in0 hcfg hpkt
  case hostOut p =>
    simp only [exec_hostOut, guarded_eq_next_iff, Host.Outcome.next.injEq] at h
    obtain ⟨hp, hpossible, rfl⟩ := h
    exact .out hp hpossible
  case busReset => cases h; exact .busReset
  case sofTick => cases h; exact .sofTick
  case spuriousComm => cases h; exact .spuriousComm
  case hostInk =>
    cases hpkt : s.kbd.inPkt with
    | none =>
      rw [exec_hostInk_none hpkt] at h
      cases h
    | some p =>
      simp only [exec_hostInk_some hpkt, guarded_eq_next_iff, Host.Outcome.next.injEq] at h
      obtain ⟨hcfg, rfl⟩ := h
      exact .inK hcfg hpkt
  case keys r c v =>
    simp only [exec_keys, guarded_eq_next_iff, Host.Outcome.next.injEq] at h
    obtain ⟨-, rfl⟩ := h
    exact .keys
  case hostStalled =>
    simp only [exec_hostStalled, guarded_eq_next_iff, Host.Outcome.next.injEq] at h
    obtain ⟨-, rfl⟩ := h
    exact .stalled
  all_goals cases hi

/-- Settles O39: the move is possible exactly while endpoint 0 is configured. -/
theorem setupArrives : Obligations.SetupArrives := by
  intro s b hb
  rw [exec_hostSetup, if_pos hb]
  exact ⟨fun hcfg => if_pos hcfg, fun hcfg => if_neg (by simp [hcfg])⟩

/-- Settles O40: each clause decides the move's precondition. -/
theorem packetsAreCollected : Obligations.PacketsAreCollected := by
  intro s p
  refine ⟨fun hcfg hstall hpkt => ?_, fun hcfg hpkt => ?_, fun h => ?_, fun h => ?_⟩
  · rw [exec_hostIn0_some hpkt, if_pos ⟨hcfg, hstall⟩]
  · rw [exec_hostInk_some hpkt, if_pos hcfg]
  · cases hpkt : s.ep0.inPkt with
    | none => exact exec_hostIn0_none hpkt
    | some q =>
      rw [exec_hostIn0_some hpkt, if_neg]
      rintro ⟨hcfg, hstall⟩
      simp [hcfg, hstall, hpkt] at h
  · cases hpkt : s.kbd.inPkt with
    | none => exact exec_hostInk_none hpkt
    | some q =>
      rw [exec_hostInk_some hpkt, if_neg]
      intro hcfg
      simp [hcfg, hpkt] at h

/-- Settles O41: the move is possible exactly under its four conditions. -/
theorem outPacketArrives : Obligations.OutPacketArrives := by
  intro s p hp
  rw [exec_hostOut, if_pos hp]
  refine ⟨fun hcfg hrx hsetup hstall => if_pos ⟨hcfg, hrx, hsetup, hstall⟩, fun h => if_neg ?_⟩
  rintro ⟨hcfg, hrx, hsetup, hstall⟩
  simp [hcfg, hrx, hsetup, hstall] at h

/-- Settles O42: the move has no precondition. -/
theorem busResetClearsTheTransport : Obligations.BusResetClearsTheTransport := exec_busReset

/-- Settles O43: a KEYS move writes its own cell of the switch grid (`gridGet_gridSet`). -/
theorem signalsAndSwitches : Obligations.SignalsAndSwitches := by
  intro s r c v
  refine ⟨exec_sofTick s, exec_spuriousComm s, fun hcfg hstall => ?_, fun h => ?_, fun hr hc hshape => ?_⟩
  · rw [exec_hostStalled, if_pos ⟨hcfg, hstall⟩]
  · rw [exec_hostStalled, if_neg]
    rintro ⟨hcfg, hstall⟩
    simp [hcfg, hstall] at h
  · exact ⟨gridSet s.sw r c v, by rw [exec_keys, if_pos ⟨hr, hc⟩], gridGet_gridSet s.sw false v hshape hr hc⟩

end Sys2Proof.Machine
end

section
/-! SUPPORT. The invariant of the block (spec/10, spec/46, spec/60 R336), part by part: the scanner and its pins, the
control registers, endpoint 0, the keyboard endpoint, and the dispatcher. A step proves the parts it writes. -/

namespace Sys2Proof.Machine

/-! ## The parts -/

/-- The rows `Inv` has of the scanner, the pins and the switches. -/
structure MatrixInv (p : Params) (sc : Scanner) (pins : Pins) (sw : Grid Bool) : Prop where
  rowsInput : pins.rowDir = List.replicate p.rows false
  rowLevels : pins.rowLvl.length = p.rows
  matrixShape : Grid.Shaped sc.matrix p.rows p.cols
  counterShape : Grid.Shaped sc.dbCnt p.rows p.cols
  switchShape : Grid.Shaped sw p.rows p.cols
  counters : ∀ row ∈ sc.dbCnt, ∀ n ∈ row, n < p.debounceScans
  scanRow : sc.scanRow < p.rows

/-- The rows `Inv` has of the control registers. -/
structure ControlInv (c : Control) : Prop where
  cfgValue : c.cfgValue = 0 ∨ c.cfgValue = 1
  idleDuration : IdleUnits c.idleDuration
  idleRemaining : c.idleRemaining.toNat ≤ 1020

/-- The rows `Inv` has of endpoint 0. -/
structure Ep0Inv (e : ControlEp) : Prop where
  txReady : e.cfg = true → (e.txReady = true ↔ e.inPkt = none)
  fifoSize : e.fifo.length ≤ 64
  fifoEmpty : e.setupPend = false → e.rxPend = false → e.fifo = []
  setupFifo : e.setupPend = true → e.fifo.length ≤ 8 ∧ e.rxPend = false
  inPktSize : ∀ p, e.inPkt = some p → p.length ≤ 64

/-- The rows `Inv` has of the keyboard endpoint. -/
structure KbdInv (e : KeyboardEp) : Prop where
  fifo : e.fifo = []
  inPkt : ∀ p, e.inPkt = some p → p.length = 8
  rwal : e.cfg = true → (e.rwal = true ↔ e.inPkt = none)

/-- `Inv` by its parts. -/
structure InvParts (s : State) : Prop where
  params : s.par.wf
  matrix : MatrixInv s.par s.scan s.pins s.sw
  control : ControlInv s.ctl
  ep0 : Ep0Inv s.ep0
  kbd : KbdInv s.kbd
  selected : s.disp.dphase ≠ .idle → s.epSel = 0
  phase : PhaseInv s

theorem inv_iff_parts (s : State) : Inv s ↔ InvParts s := by
  constructor
  · intro h
    exact ⟨h.params,
      ⟨h.rowsInput, h.rowLevels, h.matrixShape, h.counterShape, h.switchShape, h.counters, h.scanRow⟩,
      ⟨h.cfgValue, h.idleDuration, h.idleRemaining⟩,
      ⟨h.txReady, h.fifoSize, h.fifoEmpty, h.setupFifo, h.inPktSize⟩,
      ⟨h.kbdFifo, h.kbdInPkt, h.kbdRwal⟩, h.ep0Selected, h.phase⟩
  · rintro ⟨hpar, ⟨hdir, hlvl, hm, hd, hsw, hcnt, hrow⟩, ⟨hcfg, hdur, hrem⟩, ⟨htx, hsize, hempty, hsetup, hpkt⟩,
      ⟨hkf, hkp, hkr⟩, hsel, hphase⟩
    exact ⟨hpar, hdir, hlvl, hm, hd, hsw, hcnt, hrow, hcfg, hdur, hrem, htx, hsize, hempty, hsetup, hpkt, hkf, hkp,
      hkr, hsel, hphase⟩

/-- At the idle phase the dispatcher's rows say nothing. -/
theorem phaseInv_idle {s : State} (h : s.disp.dphase = .idle) : PhaseInv s := by
  unfold PhaseInv
  rw [h]
  trivial

theorem phaseInv_stOut {s : State} (h : s.disp.dphase = .stOut) : PhaseInv s := by
  unfold PhaseInv
  rw [h]
  trivial

theorem phaseInv_fxTx_iff {s : State} (h : s.disp.dphase = .fxTx) :
    PhaseInv s ↔ 1 ≤ s.disp.fx.length ∧ s.disp.fx.length ≤ 2 := by
  unfold PhaseInv
  rw [h]

theorem phaseInv_inLoop_iff {s : State} (h : s.disp.dphase = .inLoop) :
    PhaseInv s ↔ s.disp.xfPtr.toNat + s.disp.xfRem.toNat ≤ sourceLen s s.disp.xfSrc ∧
      (s.disp.xfRem ≠ 0 ∨ s.disp.xfZlp = true) := by
  unfold PhaseInv
  rw [h]

theorem phaseInv_stIn_iff {s : State} (h : s.disp.dphase = .stIn) : PhaseInv s ↔ Latched s.disp.post := by
  unfold PhaseInv
  rw [h]

theorem phaseInv_addrAck_iff {s : State} (h : s.disp.dphase = .addrAck) :
    PhaseInv s ↔ ∃ a, s.disp.post = .addr a := by
  unfold PhaseInv
  rw [h]

/-! ## Endpoint 0 -/

theorem Ep0Inv.stall {e : ControlEp} (h : Ep0Inv e) (b : Bool) : Ep0Inv { e with stallReq := b } := { h with }

/-- Consuming the SETUP (R148). -/
theorem Ep0Inv.consumed {e : ControlEp} (h : Ep0Inv e) : Ep0Inv (consumed e) :=
  { h with
    fifoSize := Nat.zero_le _
    fifoEmpty := fun _ _ => rfl
    setupFifo := nofun }

/-- Reading bytes of a pending SETUP (R182). -/
theorem Ep0Inv.read {e : ControlEp} (h : Ep0Inv e) (n : Nat) : Ep0Inv { e with fifo := e.fifo.drop n } := by
  have hlen : (e.fifo.drop n).length ≤ e.fifo.length := by simp
  exact { h with
    fifoSize := hlen.trans h.fifoSize
    fifoEmpty := fun hs hr => by simp [h.fifoEmpty hs hr]
    setupFifo := fun hs => ⟨hlen.trans (h.setupFifo hs).1, (h.setupFifo hs).2⟩ }

/-- The commit of a packet of at most 64 bytes (R149). -/
theorem Ep0Inv.commit {e : ControlEp} (h : Ep0Inv e) {p : List Byte} (hp : p.length ≤ 64) :
    Ep0Inv { e with inPkt := some p, fifo := [], txReady := false } :=
  { txReady := fun _ => by simp
    fifoSize := Nat.zero_le _
    fifoEmpty := fun _ _ => rfl
    setupFifo := fun hs => ⟨Nat.zero_le _, (h.setupFifo hs).2⟩
    inPktSize := fun q hq => by cases hq; exact hp }

/-- Clearing the OUT packet (R150). -/
theorem Ep0Inv.clearReceive {e : ControlEp} (h : Ep0Inv e) : Ep0Inv { e with rxPend := false, fifo := [] } :=
  { h with
    fifoSize := Nat.zero_le _
    fifoEmpty := fun _ _ => rfl
    setupFifo := fun _ => ⟨Nat.zero_le _, rfl⟩ }

/-- A configured endpoint 0 holds nothing; a refused configuration keeps what it holds (R154). -/
theorem Ep0Inv.configured {e : ControlEp} (h : Ep0Inv e) (ok : Bool) : Ep0Inv (configuredEp0 ok e) := by
  cases ok with
  | false => exact { h with txReady := nofun }
  | true => exact ⟨by simp [configuredEp0], Nat.zero_le _, fun _ _ => rfl, nofun, nofun⟩

/-- Endpoint 0 after a bus or power-on reset holds nothing (R163, R370). -/
theorem Ep0Inv.cleared :
    Ep0Inv { cfg := false, setupPend := false, txReady := false, rxPend := false, stallReq := false, fifo := [],
             inPkt := none } :=
  ⟨nofun, Nat.zero_le _, fun _ _ => rfl, nofun, nofun⟩

/-- The arrival of a SETUP packet (R160). -/
theorem Ep0Inv.setup {e : ControlEp} {b : List Byte} (hb : b.length = 8) : Ep0Inv { e with
    fifo := b, setupPend := true, stallReq := false, inPkt := none, txReady := true, rxPend := false } :=
  { txReady := fun _ => by simp
    fifoSize := by dsimp only; omega
    fifoEmpty := nofun
    setupFifo := fun _ => ⟨hb.le, rfl⟩
    inPktSize := nofun }

/-- The collection of the committed packet (R161). -/
theorem Ep0Inv.collect {e : ControlEp} (h : Ep0Inv e) : Ep0Inv { e with inPkt := none, txReady := true } :=
  { h with
    txReady := fun _ => by simp
    inPktSize := nofun }

/-- The arrival of an OUT packet (R162). -/
theorem Ep0Inv.out {e : ControlEp} (h : Ep0Inv e) {p : List Byte} (hp : p.length ≤ 64) (hsetup : e.setupPend = false) :
    Ep0Inv { e with fifo := p, rxPend := true } :=
  { h with
    fifoSize := hp
    fifoEmpty := nofun
    setupFifo := fun hs => absurd (hsetup.symm.trans hs) (by decide) }

/-! ## The keyboard endpoint -/

theorem KbdInv.cleared : KbdInv { cfg := false, rwal := false, fifo := [], inPkt := none } :=
  ⟨rfl, nofun, nofun⟩

theorem KbdInv.configured {e : KeyboardEp} (h : KbdInv e) (ok : Bool) : KbdInv (configuredKbd ok e) := by
  cases ok with
  | false => exact { h with rwal := nofun }
  | true => exact ⟨rfl, nofun, by simp [configuredKbd]⟩

theorem KbdInv.collect {e : KeyboardEp} (h : KbdInv e) : KbdInv { e with inPkt := none, rwal := true } :=
  { h with
    inPkt := nofun
    rwal := fun _ => by simp }

/-- The commit of a report of 8 bytes (R156, R286). -/
theorem KbdInv.rearm {e : KeyboardEp} {p : List Byte} (hp : p.length = 8) :
    KbdInv { e with inPkt := some p, fifo := [], rwal := false } :=
  ⟨rfl, fun q hq => by cases hq; exact hp, fun _ => by simp⟩

/-! ## The control registers -/

theorem countDown_toNat (v : Word16) : (countDown v).toNat = v.toNat - 1 := by
  unfold countDown
  split
  case isTrue h => simp [h]
  case isFalse h => bv_omega

theorem ControlInv.countDown {c : Control} (h : ControlInv c) :
    ControlInv { c with idleRemaining := Machine.countDown c.idleRemaining } :=
  { h with idleRemaining := (countDown_toNat c.idleRemaining).trans_le ((Nat.sub_le ..).trans h.idleRemaining) }

/-- The reload of the countdown (R286). -/
theorem ControlInv.reload {c : Control} (h : ControlInv c) :
    ControlInv { c with idleRemaining := c.idleDuration } :=
  { h with idleRemaining := h.idleDuration.2 }

theorem ControlInv.setEnumState {c : Control} (h : ControlInv c) (e : EnumState) :
    ControlInv { c with enumState := e } := { h with }

theorem idleUnits_default : IdleUnits 500 := by
  unfold IdleUnits
  decide

/-- The status stage writes what is latched (R246). -/
theorem ControlInv.applyPost {s : State} (h : ControlInv s.ctl) (hpost : Latched s.disp.post) :
    ControlInv (applyPost s).ctl := by
  obtain hc | ⟨v, hp, hc⟩ | ⟨-, -, -, hc⟩ | ⟨-, -, hc⟩ | ⟨d, hp, hc⟩ | ⟨b, -, hc⟩ := applyPost_ctl s
  all_goals rw [hc]
  · exact h
  · rw [hp] at hpost
    exact { h with cfgValue := hpost }
  · exact ⟨.inr rfl, idleUnits_default, Nat.zero_le _⟩
  · exact { h with cfgValue := .inl rfl }
  · rw [hp] at hpost
    exact { h with idleDuration := hpost }
  · exact { h with }

/-! ## The scanner -/

/-- A debounced sample leaves the counters below DEBOUNCE_SCANS (R33, R305). -/
theorem debounce_counters {s : State} (hpos : 1 ≤ s.par.debounceScans)
    (h : ∀ row ∈ s.scan.dbCnt, ∀ n ∈ row, n < s.par.debounceScans) (r c : Nat) (x : Bool) :
    ∀ row ∈ (debounce r c x s).scan.dbCnt, ∀ n ∈ row, n < s.par.debounceScans := by
  unfold debounce
  dsimp only
  split
  case isTrue => exact gridSet_forall h r c hpos
  split
  case isTrue => exact gridSet_forall h r c hpos
  case isFalse hlt => exact gridSet_forall h r c (Nat.not_le.mp hlt)

/-- A visit of a row does too. -/
theorem sampleRow_counters {s : State} (hpos : 1 ≤ s.par.debounceScans)
    (h : ∀ row ∈ s.scan.dbCnt, ∀ n ∈ row, n < s.par.debounceScans) (r : Nat) :
    ∀ row ∈ (sampleRow r s).scan.dbCnt, ∀ n ∈ row, n < s.par.debounceScans := by
  have visit : ∀ (cs : List Nat) (u : State), u.par = s.par →
      (∀ row ∈ u.scan.dbCnt, ∀ n ∈ row, n < u.par.debounceScans) →
      ∀ row ∈ (cs.foldl (scanCell r) u).scan.dbCnt, ∀ n ∈ row, n < s.par.debounceScans := by
    intro cs
    induction cs with
    | nil => intro u hpar hu; rw [← hpar]; exact hu
    | cons c cs ih =>
      intro u hpar hu
      have hpar' : (scanCell r u c).par = u.par := congrArg (·.par) (debounce_frame r c _ u)
      refine ih (scanCell r u c) (hpar'.trans hpar) ?_
      rw [hpar']
      exact debounce_counters (by rw [hpar]; exact hpos) hu r c _
  exact visit _ _ rfl h

/-- A visit of a row keeps the scanner's part of the invariant. -/
theorem MatrixInv.sampleRow {s : State} (hpos : 1 ≤ s.par.debounceScans) (h : MatrixInv s.par s.scan s.pins s.sw)
    {r : Nat} (hr : r < s.par.rows) :
    MatrixInv s.par (sampleRow r s).scan (sampleRow r s).pins s.sw := by
  have hcounters := sampleRow_counters hpos h.counters r
  obtain ⟨t, hvisit, heq⟩ := sampleRow_spec (r := r) ⟨h.matrixShape, h.counterShape⟩ hr h.rowsInput h.rowLevels
  have hpar : t.par = s.par := congrArg (·.par) hvisit.frame
  have hrow : t.scan.scanRow = s.scan.scanRow := congrArg (·.scan.scanRow) hvisit.frame
  obtain ⟨hm, hd⟩ := hvisit.shaped
  rw [hpar] at hm hd
  rw [heq] at hcounters ⊢
  exact ⟨h.rowsInput, by simpa using h.rowLevels, hm, hd, h.switchShape, hcounters, by rw [hrow]; exact h.scanRow⟩

end Sys2Proof.Machine
end

section
/-! SUPPORT. Every step keeps the invariant of the block, one step at a time. -/

namespace Sys2Proof.Machine

/-! ## The parameters -/

theorem rows_pos {p : Params} (h : p.wf) : 1 ≤ p.rows := h.1

theorem debounceScans_pos {p : Params} (h : p.wf) : 1 ≤ p.debounceScans := by
  obtain ⟨-, -, -, hscans, -⟩ := h
  exact hscans

theorem kbdEp_ne_zero {p : Params} (h : p.wf) : p.kbdEp ≠ 0 := by
  obtain ⟨-, -, -, -, hkbd, -⟩ := h
  exact hkbd

/-! ## The transfer registers -/

/-- A count that fits into a transfer register is 0 there only if it is 0. -/
theorem word16_ne_zero {n : Nat} (h : n ≠ 0) (hlt : n < 65536) : BitVec.ofNat 16 n ≠ 0 := fun h0 =>
  h (by simpa [Nat.mod_eq_of_lt hlt] using congrArg BitVec.toNat h0)

/-- A source's length depends on the parameters only. -/
theorem sourceLen_congr {s t : State} (h : t.par = s.par) (src : XferSource) : sourceLen t src = sourceLen s src := by
  cases src <;> simp [sourceLen, h]

/-- No source is longer than a transfer register can count (R7, R22). -/
theorem sourceLen_le {s : State} (h : s.par.wf) (src : XferSource) : sourceLen s src ≤ 65535 := by
  obtain ⟨-, -, -, -, -, -, -, -, hrpt⟩ := h
  cases src with
  | rpt => exact hrpt
  | dev | cfgTree | cfgHid | krs => simp only [sourceLen]; decide

/-- A handler leaves the registers of the phase it starts (R189). -/
theorem phaseInv_of_started {s t : State} (hpar : t.par = s.par) (h : Started s t.disp) : PhaseInv t := by
  unfold Started at h
  unfold PhaseInv
  cases hphase : t.disp.dphase <;> rw [hphase] at h
  case inLoop =>
    obtain ⟨hptr, hrem, hne⟩ := h
    refine ⟨?_, .inl hne⟩
    rw [hptr, sourceLen_congr hpar]
    simpa using hrem
  case addrAck => exact h.elim
  all_goals exact h

/-- After a packet the transfer registers still point inside the source, and the loop owes bytes or a zero-length
packet (R244). -/
theorem phaseInv_advanceXfer {s t : State} (hpar : s.par.wf) (hphase : s.disp.dphase = .inLoop) (h : PhaseInv s)
    (htpar : t.par = s.par) (ht : t.disp = advanceXfer (min s.disp.xfRem.toNat 64) s.disp) : PhaseInv t := by
  obtain ⟨hin, -⟩ := (phaseInv_inLoop_iff hphase).mp h
  have hmax := sourceLen_le hpar s.disp.xfSrc
  have hrem : min s.disp.xfRem.toNat 64 ≤ s.disp.xfRem.toNat := Nat.min_le_left ..
  generalize min s.disp.xfRem.toNat 64 = n at ht hrem
  rw [advanceXfer_eq _ _ hrem] at ht
  by_cases hend : s.disp.xfRem.toNat = n ∧ (n = 0 ∨ s.disp.xfZlp = false)
  · exact phaseInv_stOut (by rw [ht]; exact if_pos hend)
  · rw [phaseInv_inLoop_iff (by rw [ht]; exact if_neg hend), ht]
    refine ⟨?_, ?_⟩
    · rw [sourceLen_congr htpar]
      simp only [BitVec.toNat_ofNat]
      omega
    · by_cases hall : s.disp.xfRem.toNat = n
      · right
        simpa [hall] using hend
      · left
        exact word16_ne_zero (by omega) (by have := s.disp.xfRem.isLt; omega)

/-! ## The initial state -/

theorem gridFill_shaped {α : Type} (rows cols : Nat) (v : α) : Grid.Shaped (Grid.fill rows cols v) rows cols := by
  refine ⟨List.length_replicate, fun row hrow => ?_⟩
  rw [List.eq_of_mem_replicate hrow, List.length_replicate]

/-- The initial state of a block with parameters in their ranges (R370). -/
theorem initial_parts {p : Params} (h : p.wf) : InvParts (State.initial p) where
  params := h
  matrix :=
    { rowsInput := rfl
      rowLevels := List.length_replicate
      matrixShape := gridFill_shaped ..
      counterShape := gridFill_shaped ..
      switchShape := gridFill_shaped ..
      counters := fun row hrow n hn => by
        rw [List.eq_of_mem_replicate hrow] at hn
        rw [List.eq_of_mem_replicate hn]
        exact debounceScans_pos h
      scanRow := rows_pos h }
  control := ⟨.inl rfl, idleUnits_default, Nat.zero_le _⟩
  ep0 := .cleared
  kbd := .cleared
  selected := fun hne => absurd rfl hne
  phase := phaseInv_idle rfl

theorem defaultParams_wf : Config.defaultParams.wf := by
  simp [Params.wf, Grid.Shaped, Config.defaultParams, Config.openBytes]

/-! ## The steps -/

section
variable {s t : State} (h : InvParts s)
include h

theorem passTurn_keeps : InvParts (passTurn s) := { h with }

/-- A handler consumes the SETUP and starts its phase. -/
theorem handled_keeps (ht : Handled s t) : InvParts t := by
  obtain ⟨⟨-, -, hsel⟩, ⟨b, hframe⟩, -, hstarted⟩ := ht
  have hphase : PhaseInv t := phaseInv_of_started (by rw [hframe]) hstarted
  rw [hframe] at hphase ⊢
  exact { h with
    ep0 := h.ep0.consumed.stall b
    selected := fun _ => hsel
    phase := hphase }

theorem comm_keeps (hs : exec .comm s = .next t) : InvParts t := by
  obtain ⟨⟨-, hidle, -, -⟩, ⟨-, rfl⟩ | ⟨draws, rq, ht⟩⟩ := comm_eq_next hs
  · exact { h with
      ep0 := h.ep0.stall true
      selected := fun _ => rfl }
  · refine handled_keeps ?_ ht
    exact { h with
      ep0 := h.ep0.read 8
      selected := fun _ => rfl
      phase := phaseInv_idle hidle }

/-- POR leaves the initial state but for the unspecified elements and the switches (R370). -/
theorem por_keeps (hs : exec .por s = .next t) : InvParts t := by
  cases hs
  have hinit := initial_parts h.params
  exact { hinit with
    matrix := { hinit.matrix with
      rowLevels := (List.length_map ..).trans List.length_range
      switchShape := h.matrix.switchShape }
    selected := fun hne => absurd rfl hne
    phase := phaseInv_idle rfl }

theorem eor_keeps (hs : exec .eor s = .next t) : InvParts t := by
  obtain ⟨⟨-, hidle⟩, rfl⟩ := eor_eq_next hs
  exact { h with
    control := h.control.setEnumState .default
    ep0 := h.ep0.configured _
    selected := fun hne => absurd hidle hne
    phase := phaseInv_idle hidle }

theorem sof_keeps (hs : exec .sof s = .next t) : InvParts t := by
  obtain ⟨-, rfl⟩ := sof_eq_next hs
  exact { h with control := h.control.countDown }

theorem pFxTx_keeps (hs : exec .pFxTx s = .next t) : InvParts t := by
  obtain ⟨hen, hsel, -⟩ := pFxTx_eq_next hs
  rw [exec_pFxTx_enabled hen hsel h.ep0.fifoSize] at hs
  split at hs
  case isTrue hfits =>
    cases hs
    exact { h with
      ep0 := h.ep0.commit (by simpa using hfits)
      selected := fun _ => hsel
      phase := phaseInv_stOut rfl }
  case isFalse => cases hs

theorem sendChunk_keeps (hphase : s.disp.dphase = .inLoop) (hsel : s.epSel = 0) (hsetup : s.ep0.setupPend = false)
    (hrx : s.ep0.rxPend = false) (hs : sendChunk s = .next t) : InvParts t := by
  obtain ⟨bytes, hread, rfl⟩ := sendChunk_eq_next hsel hs
  have hlen : (s.ep0.fifo ++ bytes).length ≤ 64 := by
    unfold memRead at hread
    split at hread
    case isTrue =>
      cases hread
      simp [h.ep0.fifoEmpty hsetup hrx]
    case isFalse => cases hread
  exact { h with
    ep0 := h.ep0.commit hlen
    selected := fun _ => hsel
    phase := phaseInv_advanceXfer h.params hphase h.phase rfl rfl }

theorem pInLoop_keeps (hs : exec .pInLoop s = .next t) : InvParts t := by
  obtain ⟨⟨hphase, -⟩, hsel, ⟨-, rfl⟩ | ⟨-, -, rfl⟩ | ⟨hsetup, hrx, -, hs⟩⟩ := pInLoop_eq_next hs
  · exact { h with selected := fun _ => hsel, phase := phaseInv_idle rfl }
  · exact { h with selected := fun _ => hsel, phase := phaseInv_stOut rfl }
  · exact sendChunk_keeps h hphase hsel hsetup hrx hs

theorem pStOut_keeps (hs : exec .pStOut s = .next t) : InvParts t := by
  obtain ⟨-, hsel, rfl⟩ := pStOut_eq_next hs
  exact { h with
    ep0 := h.ep0.clearReceive
    selected := fun _ => hsel
    phase := phaseInv_idle rfl }

theorem pStIn_keeps (hs : exec .pStIn s = .next t) : InvParts t := by
  obtain ⟨⟨hphase, -⟩, hsel, rfl⟩ := pStIn_eq_next hs
  have hlatched := (phaseInv_stIn_iff hphase).mp h.phase
  have hcontrol := ControlInv.applyPost (s := clearSendFlag s) h.control hlatched
  have hframe := applyPost_frame (s := clearSendFlag s) (kbdEp_ne_zero h.params)
  generalize applyPost (clearSendFlag s) = t at hcontrol hframe
  refine ⟨?_, ?_, hcontrol, ?_, ?_, ?_, ?_⟩
  · rw [hframe.par]; exact h.params
  · rw [hframe.par, hframe.scan, hframe.pins, hframe.sw]; exact h.matrix
  · rw [hframe.ep0]; exact h.ep0.commit h.ep0.fifoSize
  · obtain hkbd | hkbd := hframe.kbd
    · rw [hkbd]; exact h.kbd
    · rw [hkbd]; exact h.kbd.configured _
  · obtain hidle | ⟨-, hsel', -⟩ := hframe.next
    · exact fun hne => absurd hidle hne
    · exact fun _ => hsel'.trans hsel
  · obtain hidle | ⟨hack, -, a, hpost⟩ := hframe.next
    · exact phaseInv_idle hidle
    · exact (phaseInv_addrAck_iff hack).mpr ⟨a, by rw [hframe.disp]; exact hpost⟩

theorem pAddrAck_keeps (hs : exec .pAddrAck s = .next t) : InvParts t := by
  obtain ⟨-, hsel, a, -, rfl⟩ := pAddrAck_eq_next hs
  exact { h with
    control := h.control.setEnumState .addressed
    selected := fun _ => hsel
    phase := phaseInv_idle rfl }

theorem pOutDrain_keeps (hs : exec .pOutDrain s = .next t) : InvParts t := by
  obtain ⟨-, hsel, ⟨-, rfl⟩ | ⟨-, -, rfl⟩⟩ := pOutDrain_eq_next hs
  · exact { h with selected := fun _ => hsel, phase := phaseInv_idle rfl }
  · unfold drainPacket
    dsimp only
    split
    case isTrue =>
      exact { h with
        ep0 := h.ep0.clearReceive
        selected := fun _ => hsel
        phase := trivial }
    case isFalse hmore =>
      rw [not_or] at hmore
      obtain ⟨hrem, -⟩ := hmore
      exact { h with
        ep0 := h.ep0.clearReceive
        selected := fun _ => hsel
        phase := word16_ne_zero hrem ((Nat.sub_le ..).trans_lt s.disp.xfRem.isLt) }

theorem scanRow_keeps (hs : exec .scanRow s = .next t) : InvParts t := by
  obtain ⟨⟨-, hidle⟩, ht⟩ := scanRow_eq_next hs
  have hmatrix := h.matrix.sampleRow (debounceScans_pos h.params) h.matrix.scanRow
  obtain ⟨⟨hctl, hpar, -, -, hsw, -, hkbd⟩, hdisp, -, hsel, hep0⟩ := sampleRow_frame s.scan.scanRow s
  have hrow := h.matrix.scanRow
  have hbase : InvParts (sampleRow s.scan.scanRow s) := by
    refine ⟨hpar ▸ h.params, ?_, hctl ▸ h.control, hep0 ▸ h.ep0, hkbd ▸ h.kbd, ?_, ?_⟩
    · rw [hpar, hsw]; exact hmatrix
    · rw [hdisp, hsel]; exact h.selected
    · exact phaseInv_idle (hdisp ▸ hidle)
  generalize sampleRow s.scan.scanRow s = u at hbase ht hpar
  rw [ht]
  split
  case isTrue => exact { hbase with matrix := { hbase.matrix with scanRow := rows_pos hbase.params } }
  case isFalse hlast =>
    exact { hbase with matrix := { hbase.matrix with scanRow := by rw [hpar]; dsimp only; omega } }

theorem getState_keeps (hs : exec .getState s = .next t) : InvParts t := by
  obtain ⟨-, rfl⟩ := getState_eq_next hs
  exact { h with matrix := { h.matrix with } }

theorem reportSend_keeps (hs : exec .reportSend s = .next t) : InvParts t := by
  obtain ⟨⟨-, hidle⟩, u, hu, rfl⟩ := reportSend_eq_next hs
  have hu : InvParts u := by
    obtain ⟨-, rfl⟩ | ⟨-, -, rfl⟩ | ⟨-, -, rfl⟩ := trySend_eq_next (kbdEp_ne_zero h.params) hu
    · exact h
    · exact { h with selected := fun hne => absurd hidle hne }
    · exact { h with
        control := h.control.reload
        kbd := .rearm (by rw [h.kbd.fifo]; rfl)
        selected := fun hne => absurd hidle hne }
  exact { hu with matrix := { hu.matrix with scanRow := rows_pos hu.params } }

/-- The environment's moves keep the invariant. -/
theorem envMove_keeps {i : Instr} (hi : i.format = .envMove) (hs : exec i s = .next t) : InvParts t := by
  cases envMove_eq_next hi hs
  case setup b hb _ => exact { h with ep0 := .setup hb }
  case in0 p _ _ => exact { h with ep0 := h.ep0.collect }
  case out p hp hpossible =>
    obtain ⟨-, -, hsetup, -⟩ := hpossible
    exact { h with ep0 := h.ep0.out hp hsetup }
  case busReset => exact { h with ep0 := .cleared, kbd := .cleared }
  case inK p _ _ => exact { h with kbd := h.kbd.collect }
  case keys r c v =>
    exact { h with matrix := { h.matrix with switchShape := gridSet_shaped h.matrix.switchShape r c v } }
  case sofTick | spuriousComm | stalled => exact { h with }

/-- Every step that an agent takes of its own keeps the invariant. -/
theorem agentStep_keeps {i : Instr} (hi : i.isAgentStep = true) (hs : exec i s = .next t) : InvParts t := by
  cases i
  case por => exact por_keeps h hs
  case eor => exact eor_keeps h hs
  case sof => exact sof_keeps h hs
  case comm => exact comm_keeps h hs
  case pFxTx => exact pFxTx_keeps h hs
  case pInLoop => exact pInLoop_keeps h hs
  case pStOut => exact pStOut_keeps h hs
  case pStIn => exact pStIn_keeps h hs
  case pAddrAck => exact pAddrAck_keeps h hs
  case pOutDrain => exact pOutDrain_keeps h hs
  case scanRow => exact scanRow_keeps h hs
  case getState => exact getState_keeps h hs
  case reportSend => exact reportSend_keeps h hs
  case hostSetup | hostIn0 | hostOut | busReset | sofTick | spuriousComm | hostInk | keys | hostStalled =>
    exact envMove_keeps h rfl hs
  all_goals cases hi

end

/-- Settles O53: a step is a turn that passes or an agent's own step, and each keeps the parts of the invariant. -/
theorem stepKeepsTheInvariant : Obligations.StepKeepsTheInvariant := by
  intro s t hinv hstep
  rw [inv_iff_parts] at hinv ⊢
  obtain ⟨hexec, hagent⟩ | rfl := step_eq_next hstep
  · exact agentStep_keeps (passTurn_keeps hinv) hagent hexec
  · exact passTurn_keeps hinv

/-- Settles O52: the default parameters are in their ranges. -/
theorem resetMeetsTheInvariant : Obligations.ResetMeetsTheInvariant :=
  (inv_iff_parts _).mpr (initial_parts defaultParams_wf)

end Sys2Proof.Machine
end

section
/-! SUPPORT. The requests where the entry step starts them (spec/42, spec/43 section 1, spec/44): what each computes
from its operands, and the state its handler leaves. -/

namespace Sys2Proof.Machine

/-! ## Operands -/

theorem loByte_eq_ofNat (v : Word16) : loByte v = BitVec.ofNat 8 v.toNat := by
  apply BitVec.eq_of_toNat_eq
  simp [loByte]

/-- GET_IDLE replies in units of four ticks (R262). -/
theorem idleReply_eq_ofNat (v : Word16) : idleReply v = BitVec.ofNat 8 (v.toNat / 4) := by
  rw [idleReply, loByte_eq_ofNat, BitVec.toNat_ushiftRight, Nat.shiftRight_eq_div_pow]

/-- SET_IDLE's duration is four times the high byte of wValue (R264). -/
theorem idleTicks_eq_ofNat (v : Word16) : idleTicks v = BitVec.ofNat 16 (4 * (v.toNat / 256)) := by
  have hv := v.isLt
  apply BitVec.eq_of_toNat_eq
  simp only [idleTicks, hiByte, BitVec.toNat_shiftLeft, BitVec.toNat_setWidth, BitVec.extractLsb'_toNat,
    Nat.shiftRight_eq_div_pow, Nat.shiftLeft_eq, BitVec.toNat_ofNat]
  omega

theorem protocolOf_eq_decide (v : Word16) : protocolOf v = decide (v.toNat = 1) := by
  simp [protocolOf, BitVec.toNat_eq, Bool.beq_eq_decide_eq]

theorem addressOf_eq_ofNat (v : Word16) : addressOf v = BitVec.ofNat 7 (v.toNat % 128) := by
  apply BitVec.eq_of_toNat_eq
  simp [addressOf]

theorem servedLen_toNat (l : Word16) (len : Nat) : (servedLen l len).toNat = min l.toNat len := by
  have hl := l.isLt
  simp only [servedLen, BitVec.toNat_ofNat]
  omega

/-- A chunked read in the words of R243 and R247. -/
theorem ctrlIn_eq (src : XferSource) (l : Word16) (s : State) :
    ctrlIn src l s = { s with
      ep0 := consumed s.ep0
      disp := { s.disp with
        xfSrc := src
        xfPtr := 0
        xfRem := BitVec.ofNat 16 (min l.toNat (sourceLen s src))
        xfZlp := decide (0 < min l.toNat (sourceLen s src) ∧ min l.toNat (sourceLen s src) < l.toNat ∧
          min l.toNat (sourceLen s src) % 64 = 0)
        dphase := if min l.toNat (sourceLen s src) = 0 then .stOut else .inLoop } } := by
  have hzero : servedLen l (sourceLen s src) = 0 ↔ min l.toNat (sourceLen s src) = 0 := by
    rw [BitVec.toNat_eq, servedLen_toNat]
    rfl
  unfold ctrlIn zlpOwed
  simp only [hzero, servedLen_toNat]
  rfl

/-! ## The handlers -/

/-- Settles O6: by constructor and by key the handler is `ackH2D .none`, and the status stage then applies no
effect. -/
theorem noOpRequestsAreAcknowledged : Obligations.NoOpRequestsAreAcknowledged := by
  intro v x l s hs t
  have hack : startRequest (ackH2D .none) s = .next t := startRequest_next hs _
  refine ⟨hack, hack, hack, hack, hack, hack, hack, fun r hkey => ?_, fun hready => ?_⟩
  · obtain ⟨ty, rq, v, x, l⟩ := r
    simp only [List.mem_cons, Prod.mk.injEq, List.not_mem_nil, or_false] at hkey
    obtain ⟨rfl, rfl⟩ | ⟨rfl, rfl⟩ | ⟨rfl, rfl⟩ | ⟨rfl, rfl⟩ | ⟨rfl, rfl⟩ | ⟨rfl, rfl⟩ | ⟨rfl, rfl⟩ := hkey
    all_goals exact hack
  · exact exec_pStIn_enabled (s := t) ⟨rfl, hready⟩ hs.2.2

/-- Settles O7: by constructor and by key the handler is `replyFixed`, and the reply then fits into the empty FIFO. -/
theorem zeroReplies : Obligations.ZeroReplies := by
  intro v x l s hs t
  have hreply (bytes : List Byte) : startRequest (replyFixed bytes) s = .next (t bytes) := startRequest_next hs _
  refine ⟨hreply _, hreply _, hreply _, hreply _, fun r hty hrq => ?_, fun r hty hrq => ?_,
    fun hready bytes hbytes => ?_⟩
  · obtain ⟨ty, rq, v, x, l⟩ := r
    dsimp only at hty hrq
    subst hrq
    simp only [List.mem_cons, List.not_mem_nil, or_false] at hty
    obtain rfl | rfl | rfl := hty
    all_goals exact hreply _
  · obtain ⟨ty, rq, v, x, l⟩ := r
    dsimp only at hty hrq
    subst hty hrq
    exact hreply _
  · have hfits : 0 + bytes.length ≤ 64 := by
      simp only [List.mem_cons, List.not_mem_nil, or_false] at hbytes
      obtain rfl | rfl := hbytes <;> decide
    exact fixedReplyIsCommitted (t bytes) rfl hready hs.2.2 hfits

/-- Settles O8: both handlers are `replyFixed`. -/
theorem idleAndProtocolReplies : Obligations.IdleAndProtocolReplies := by
  intro v x l s hs t
  rw [← idleReply_eq_ofNat]
  exact ⟨startRequest_next hs _, startRequest_next hs _⟩

/-- Settles O9: by constructor and by key the handler latches the value, and the status stage writes it. -/
theorem idleAndProtocolAreSet : Obligations.IdleAndProtocolAreSet := by
  intro v x l s hs t u d b
  have hidle : startRequest (ackH2D (.idle (idleTicks v))) s = .next (t (.idle d)) := by
    rw [idleTicks_eq_ofNat]
    exact startRequest_next hs _
  have hproto : startRequest (ackH2D (.proto (protocolOf v))) s = .next (t (.proto b)) := by
    rw [protocolOf_eq_decide]
    exact startRequest_next hs _
  refine ⟨hidle, hproto, fun r hty hv => ⟨fun hrq => ?_, fun hrq => ?_⟩, fun hready => ⟨?_, ?_⟩⟩
  · obtain ⟨ty, rq, v', x, l⟩ := r
    dsimp only at hty hv hrq
    subst hty hrq hv
    exact hidle
  · obtain ⟨ty, rq, v', x, l⟩ := r
    dsimp only at hty hv hrq
    subst hty hrq hv
    exact hproto
  · exact exec_pStIn_enabled (s := t (.idle d)) ⟨rfl, hready⟩ hs.2.2
  · exact exec_pStIn_enabled (s := t (.proto b)) ⟨rfl, hready⟩ hs.2.2

/-- Settles O10: the handler is `ackH2D`. -/
theorem addressIsLatched : Obligations.AddressIsLatched := by
  intro v x l s hs
  rw [← addressOf_eq_ofNat]
  exact startRequest_next hs _

/-- Ignoring a request consumes the SETUP and leaves the idle dispatcher idle (R186). -/
theorem ignoreRequest_eq {s : State} (hs : HandlerStarts s) : ignoreRequest s = { s with ep0 := consumed s.ep0 } := by
  obtain ⟨hidle, -, -⟩ := hs
  unfold ignoreRequest endDispatch setPhase
  rw [clearSetupFlag_disp, ← hidle]
  rfl

theorem exec_getConfiguration (v x l : Word16) (s : State) :
    exec (.getConfiguration v x l) s =
      startRequest (if configRejected v = true then ignoreRequest else replyFixed [s.ctl.cfgValue]) s := rfl

theorem exec_setConfiguration (v x l : Word16) (s : State) :
    exec (.setConfiguration v x l) s =
      startRequest (if configRejected v = true then ignoreRequest else ackH2D (.cfg (loByte v))) s := rfl

/-- Settles O11: both handlers test the value first. -/
theorem configurationRequests : Obligations.ConfigurationRequests := by
  intro v x l s hs
  rw [exec_getConfiguration, exec_setConfiguration, startRequest_next hs, startRequest_next hs]
  refine ⟨fun hv => ?_, fun hv => ?_⟩
  · have hrejected : configRejected v = true := decide_eq_true hv
    rw [if_pos hrejected, if_pos hrejected, ignoreRequest_eq hs]
    exact ⟨rfl, rfl⟩
  · have haccepted : ¬configRejected v = true := by simpa [configRejected] using hv
    rw [if_neg haccepted, if_neg haccepted, loByte_eq_ofNat]
    exact ⟨rfl, rfl⟩

/-- Settles O12: each of the five starts `ctrlIn` of its source. -/
theorem chunkedReadsStart : Obligations.ChunkedReadsStart := by
  intro itf d v x l s hs t
  have hread (src : XferSource) : startRequest (ctrlIn src l) s = .next (t src (sourceLen s src)) := by
    rw [startRequest_next hs, ctrlIn_eq]
  exact ⟨hread .dev, hread .cfgTree, hread .cfgHid, hread .rpt, hread .krs⟩

/-- Settles O13: both handlers are `ignoreRequest`. -/
theorem ignoredRequests : Obligations.IgnoredRequests := by
  intro itf t d v x l s hs
  have hignore : startRequest ignoreRequest s = .next { s with ep0 := consumed s.ep0 } := by
    rw [startRequest_next hs, ignoreRequest_eq hs]
  exact ⟨hignore, hignore⟩

/-- Settles O14: the two branches of `drainReport`. -/
theorem setReportStarts : Obligations.SetReportStarts := by
  intro v x l s hs
  change startRequest (drainReport l) s = _
  have hzero : l = 0 ↔ l.toNat = 0 := BitVec.toNat_eq
  rw [startRequest_next hs, drainReport]
  by_cases hl : l.toNat = 0
  · rw [if_pos (hzero.mpr hl), if_pos hl]
    rfl
  · rw [if_neg (hl ∘ hzero.mp), if_neg hl]
    rfl

end Sys2Proof.Machine
end

section
/-! SUPPORT. The COMM entry step (spec/41 R180 to R184), the handlers and the reset (spec/45 R281, spec/60 R341, spec/70
R370), and the step that takes them (spec/60 R344). -/

namespace Sys2Proof.Machine

/-! ## The entry step -/

/-- The little-endian value of two bytes (R9, R72). -/
theorem u16_eq_ofNat (lo hi : Byte) : u16 lo hi = BitVec.ofNat 16 (hi.toNat * 256 + lo.toNat) := by
  rw [← u16_toNat, BitVec.ofNat_toNat, BitVec.setWidth_eq]

/-- The state in which the entry step parses the packet. -/
abbrev entered (s : State) : State := selectEndpoint 0 (takeEvent .comm s)

/-- The entry step with a SETUP pending runs the request in the latch (R182 to R184). -/
theorem exec_comm_pending {s : State} (hen : CommEnabled s) (hsetup : s.ep0.setupPend = true) :
    exec .comm s = exec (decodeRequest (parse (entered s)).disp.rq) (parse (entered s)) := by
  change execComm s = _
  unfold execComm
  rw [if_pos hen, ← runHandler_eq_exec (decodeRequest_isRequest _)]
  exact if_pos hsetup

/-- The entry step on a whole packet: the latch holds its fields and the FIFO is empty (R182). -/
theorem exec_comm_packet {s : State} {b0 b1 b2 b3 b4 b5 b6 b7 : Byte} (hen : CommEnabled s)
    (hsetup : s.ep0.setupPend = true) (hfifo : s.ep0.fifo = [b0, b1, b2, b3, b4, b5, b6, b7]) :
    exec .comm s = exec (decodeRequest (assemble b0 b1 b2 b3 b4 b5 b6 b7)) { s with
      ev := { s.ev with commPend := false }
      epSel := 0
      ep0 := { s.ep0 with fifo := [] }
      disp := { s.disp with rq := assemble b0 b1 b2 b3 b4 b5 b6 b7 } } := by
  rw [exec_comm_pending hen hsetup, parse_packet (s := entered s) rfl hfifo]
  rfl

/-- Settles O17: the entry step on a whole packet, the latch written out byte by byte. -/
theorem entryRunsTheDecodedRequest : Obligations.EntryRunsTheDecodedRequest := by
  intro s b0 b1 b2 b3 b4 b5 b6 b7 i hen hsetup hfifo hdecode
  cases hdecode
  simp only [← u16_eq_ofNat]
  exact exec_comm_packet hen hsetup hfifo

/-- Settles O18: with no SETUP pending the step stalls; otherwise the parse leaves a state in which any request runs to
its first wait, consuming the SETUP. -/
theorem entryCompletes : Obligations.EntryCompletes := by
  intro s hen
  cases hsetup : s.ep0.setupPend with
  | false => exact ⟨_, exec_comm_spurious hen hsetup, hsetup, rfl⟩
  | true =>
    rw [exec_comm_pending hen hsetup]
    obtain ⟨draws, rq, hparse⟩ := parse_frame (entered s) rfl
    have hstarts : HandlerStarts (parse (entered s)) := by
      rw [hparse]
      exact ⟨hen.2.1, hsetup, rfl⟩
    have hreq := decodeRequest_isRequest (parse (entered s)).disp.rq
    obtain ⟨t, ht⟩ := request_completes hreq hstarts
    obtain ⟨-, ⟨stalled, hframe⟩, -, -⟩ := request_eq_next hreq ht
    refine ⟨t, ht, ?_, ?_⟩
    · rw [hframe]
      rfl
    · rw [hframe, hparse]
      rfl

/-! ## The step -/

/-- A turn given to an operation that is no agent's step passes. -/
theorem step_of_not_agentStep {s : State} (h : (nextMove s).isAgentStep = false) : step s = .next (passTurn s) := by
  unfold step
  dsimp only
  rw [if_neg (by simp [h])]

/-- A turn given to an agent's step takes it, or passes. -/
theorem step_of_agentStep {s : State} (h : (nextMove s).isAgentStep = true) :
    step s = orPass (passTurn s) (exec (nextMove s) (passTurn s)) := if_pos h

/-- A refusal that lets the turn pass. -/
theorem orPass_passes {r : Refusal} (h : r ∈ [Refusal.notEnabled, .moveImpossible, .badOperand]) (s : State) :
    orPass s (.refused r) = .next s := by
  simp only [List.mem_cons, List.not_mem_nil, or_false] at h
  obtain rfl | rfl | rfl := h <;> rfl

/-- A refusal that stands. -/
theorem orPass_stands {r : Refusal} (h : r ∉ [Refusal.notEnabled, .moveImpossible, .badOperand]) (s : State) :
    orPass s (.refused r) = .refused r := by
  cases r
  case notEnabled | moveImpossible | badOperand => simp at h
  all_goals rfl

/-- Settles O50: the placed move is the next one, and `orPass` decides on its outcome. -/
theorem stepTakesThePlacedMove : Obligations.StepTakesThePlacedMove := by
  intro s i rest hsched s'
  have hmove : nextMove s = i := by simp [nextMove, hsched]
  have hpass : passTurn s = s' := by simp [passTurn, hsched, s']
  have htaken (ha : i.isAgentStep = true) : step s = orPass s' (exec i s') := by
    rw [step_of_agentStep (by rw [hmove]; exact ha), hmove, hpass]
  refine ⟨fun t ha ht => ?_, fun f ha hf => ?_, fun r hr ha ht => ?_, fun r hr ha ht => ?_, fun ha => ?_⟩
  · rw [htaken ha, ht]
    rfl
  · rw [htaken ha, hf]
    rfl
  · rw [htaken ha, ht, orPass_passes hr]
  · rw [htaken ha, ht, orPass_stands hr]
  · rw [step_of_not_agentStep (by rw [hmove]; exact ha), hpass]

/-- The bytes of an opcode-table word that decodes (R101). -/
theorem decode_tablePacket {nbits w : Nat} {i : Instr} (h : decodeTableWord nbits w = some i) :
    decode (tablePacket nbits w) = .ok i := by
  unfold decodeTableWord at h
  split at h
  case isTrue => cases h
  split at h
  case h_1 j hj => rw [hj, Option.some.inj h]
  case h_2 => cases h

/-- Settles O51: the placed turn is the COMM entry step on the word's packet, and a request always completes. -/
theorem stepRunsTheFetchedRequest : Obligations.StepRunsTheFetchedRequest := by
  intro s nbits w i hword
  have hdecode := decode_tablePacket hword
  obtain ⟨b0, b1, b2, b3, b4, b5, b6, b7, hpkt⟩ : ∃ b0 b1 b2 b3 b4 b5 b6 b7,
      tablePacket nbits w = [b0, b1, b2, b3, b4, b5, b6, b7] := ⟨_, _, _, _, _, _, _, _, rfl⟩
  rw [hpkt] at hdecode
  cases hdecode
  refine ⟨assemble b0 b1 b2 b3 b4 b5 b6 b7, rfl, ?_⟩
  have hstep := exec_comm_packet (s := passTurn (s.withFetchWord nbits w)) ⟨rfl, rfl, rfl, rfl⟩ rfl hpkt
  obtain ⟨t, ht⟩ := request_completes (decodeRequest_isRequest (assemble b0 b1 b2 b3 b4 b5 b6 b7)) (s := { s with
    ep0 := { s.ep0 with setupPend := true, fifo := [] }
    ev := { eorPend := false, sofPend := false, commPend := false }
    disp := { s.disp with dphase := .idle, rq := assemble b0 b1 b2 b3 b4 b5 b6 b7 }
    epSel := 0
    turn := s.turn + 1 }) ⟨rfl, rfl, rfl⟩
  rw [ht, step_of_agentStep rfl]
  exact congrArg (orPass _) (hstep.trans ht)

/-! ## Reset and handlers -/

/-- The EOR handler where it is enabled (R341). -/
theorem exec_eor_enabled {s : State} (hen : EorEnabled s) :
    exec .eor s = .next { configureEndpoint 0 (selectEndpoint 0 (takeEvent .eor s)) with
      ctl := { s.ctl with enumState := .default } } := by
  change execEor s = _
  unfold execEor
  rw [if_pos hen]
  rfl

/-- The SOF handler where it is enabled (R281). -/
theorem exec_sof_enabled {s : State} (hen : SofEnabled s) :
    exec .sof s = .next { s with
      ev := { s.ev with sofPend := false }
      ctl := { s.ctl with idleRemaining := countDown s.ctl.idleRemaining } } := by
  change execSof s = _
  unfold execSof
  rw [if_pos hen]
  rfl

/-- Settles O30: the fields of the state that POR leaves. -/
theorem powerOnReset : Obligations.PowerOnReset := by
  intro s
  refine ⟨_, rfl, rfl, rfl, rfl, rfl, rfl, rfl, rfl, rfl, rfl, rfl, ?_, rfl, rfl, rfl⟩
  exact (List.length_map ..).trans List.length_range

/-- Settles O31: of the endpoints only endpoint 0 is configured. -/
theorem endOfResetHandler : Obligations.EndOfResetHandler := by
  intro s hen
  rw [exec_eor_enabled hen]
  rfl

/-- Settles O32: the floor is truncated subtraction (`countDown_toNat`). -/
theorem startOfFrameHandler : Obligations.StartOfFrameHandler := by
  intro s hen
  rw [exec_sof_enabled hen, ← countDown_toNat, BitVec.ofNat_toNat, BitVec.setWidth_eq]

/-- Settles O33: each of the steps is guarded by the idle dispatcher, SOF and COMM by the events before them. -/
theorem exclusivityAndPriority : Obligations.ExclusivityAndPriority := by
  intro s
  refine ⟨fun hbusy i hi => ?_, fun heor => ⟨if_neg ?_, if_neg ?_⟩, fun hsof => if_neg ?_⟩
  · simp only [List.mem_cons, List.not_mem_nil, or_false] at hi
    obtain rfl | rfl | rfl | rfl | rfl | rfl := hi
    · exact if_neg fun ⟨_, hidle⟩ => hbusy hidle
    · exact if_neg fun ⟨_, hidle, _⟩ => hbusy hidle
    · exact if_neg fun ⟨_, hidle, _⟩ => hbusy hidle
    · exact if_neg fun ⟨_, hidle⟩ => hbusy hidle
    · exact if_neg fun ⟨_, hidle⟩ => hbusy hidle
    · exact if_neg fun ⟨_, hidle⟩ => hbusy hidle
  · rintro ⟨-, -, hno⟩
    simp [heor] at hno
  · rintro ⟨-, -, hno, -⟩
    simp [heor] at hno
  · rintro ⟨-, -, -, hno⟩
    simp [hsof] at hno

end Sys2Proof.Machine
end

section
/-! SUPPORT. The main loop (spec/46 R304 to R311, spec/45 R285 to R290): the visit of a row, the report state rebuilt
from the pressed cells, and the report send. -/

namespace Sys2Proof.Machine

/-! ## SCAN_ROW -/

theorem exec_scanRow_enabled {s : State} (hen : MainEnabled .scan s) :
    exec .scanRow s = .next (if s.scan.scanRow + 1 = s.par.rows then endOfScan (sampleRow s.scan.scanRow s)
      else { sampleRow s.scan.scanRow s with
        scan := { (sampleRow s.scan.scanRow s).scan with scanRow := s.scan.scanRow + 1 } }) := if_pos hen

/-- The scanner after the visit of row `r` whose samples left it at `sc` (R304, R306). -/
def afterRow (r rows : Nat) (sc : Scanner) : Scanner :=
  if r + 1 = rows then { sc with scanChanged := sc.scanAcc, scanAcc := false, scanRow := 0, mphase := .state }
  else { sc with scanRow := r + 1 }

/-- The SCAN_ROW step on arrays of the right sizes: the row is visited (`sampleRow_spec`) and the position moves on. -/
theorem scanRow_spec {s : State} (hen : MainEnabled .scan s) (hready : MatrixReady s) :
    ∃ u, Visited s.scan.scanRow (fun c => gridGet s.sw false s.scan.scanRow c) (List.range s.par.cols) s u ∧
      exec .scanRow s = .next { s with
        scan := afterRow s.scan.scanRow s.par.rows u.scan
        pins := { s.pins with rowLvl := s.pins.rowLvl.set s.scan.scanRow s.par.activeLevel } } := by
  obtain ⟨hdir, hlvl, hm, hd, hrow⟩ := hready
  obtain ⟨u, hvisit, heq⟩ := sampleRow_spec (r := s.scan.scanRow) ⟨hm, hd⟩ hrow hdir hlvl
  refine ⟨u, hvisit, ?_⟩
  rw [exec_scanRow_enabled hen, heq, afterRow]
  split
  case isTrue =>
    rw [hvisit.frame]
    rfl
  case isFalse =>
    rw [hvisit.frame]

/-- Moving on to the next row touches neither array. -/
theorem afterRow_arrays (r rows : Nat) (sc : Scanner) :
    (afterRow r rows sc).matrix = sc.matrix ∧ (afterRow r rows sc).dbCnt = sc.dbCnt := by
  unfold afterRow
  split <;> exact ⟨rfl, rfl⟩

/-- Settles O34: the cells of the visited row are the sampled ones, and no other cell moves. -/
theorem rowVisitFiltersItsCells : Obligations.RowVisitFiltersItsCells := by
  intro s hen hready r
  obtain ⟨u, hvisit, hexec⟩ := scanRow_spec hen hready
  obtain ⟨hmatrix, hcount⟩ := afterRow_arrays r s.par.rows u.scan
  refine ⟨_, hexec, rfl, fun c hc => ?_, fun r' c hne => ?_⟩
  · have hcell := hvisit.cells r c
    rw [if_pos ⟨rfl, List.mem_range.mpr hc⟩] at hcell
    dsimp only
    rw [hmatrix, hcount]
    exact hcell
  · have hcell := hvisit.cells r' c
    rw [if_neg (fun h => hne h.1)] at hcell
    dsimp only
    rw [hmatrix, hcount]
    exact Prod.mk.inj hcell

/-- Does a cell of row `r` flip when the row is visited? -/
def rowFlips (s : State) (r : Nat) : Bool :=
  (List.range s.par.cols).any fun c => (filteredCell s r c (gridGet s.sw false r c)).1 != (cellOf s r c).1

theorem rowFlips_iff (s : State) (r : Nat) :
    rowFlips s r = true ↔
      ∃ c, c < s.par.cols ∧ (filteredCell s r c (gridGet s.sw false r c)).1 ≠ (cellOf s r c).1 := by
  simp [rowFlips]

/-- Settles O35: `rowFlips` is what the visit adds to `scan_acc`. -/
theorem scanPosition : Obligations.ScanPosition := by
  intro s hen hready r
  obtain ⟨u, hvisit, hexec⟩ := scanRow_spec hen hready
  have hphase : u.scan.mphase = s.scan.mphase := congrArg (·.scan.mphase) hvisit.frame
  have hchanged : u.scan.scanChanged = s.scan.scanChanged := congrArg (·.scan.scanChanged) hvisit.frame
  refine ⟨_, hexec, rowFlips s r, rowFlips_iff s r, fun hmore => ?_, fun hlast => ?_⟩
  · dsimp only
    rw [afterRow, if_neg hmore.ne]
    exact ⟨hphase.trans hen.1, rfl, hvisit.acc, hchanged⟩
  · dsimp only
    rw [afterRow, if_pos hlast]
    exact ⟨rfl, rfl, rfl, hvisit.acc⟩

/-! ## GET_STATE -/

theorem exec_getState_enabled {s : State} (hen : MainEnabled .state s) :
    exec .getState s = .next { s with krs := reportState s, scan := { s.scan with mphase := .send } } := if_pos hen

/-- What `get_state()` has gathered of the keycodes `ks` (R310). -/
structure GatheredFrom (ks : List Byte) (g : Gathered) : Prop where
  mods : ∀ b, b < 8 → (g.mod.getLsbD b = true ↔ BitVec.ofNat 8 (0xE0 + b) ∈ ks)
  keys : g.keys = (ks.filter fun k => !isModifier k).take 6
  overflow : g.ovf = true ↔ 6 < (ks.filter fun k => !isModifier k).length

/-- A modifier's bit is its distance from the first one. -/
theorem modifier_eq_iff {k : Byte} (hk : 0xE0 ≤ k.toNat ∧ k.toNat ≤ 0xE7) {b : Nat} (hb : b < 8) :
    BitVec.ofNat 8 (0xE0 + b) = k ↔ k.toNat - 0xE0 = b := by
  rw [BitVec.toNat_eq, BitVec.toNat_ofNat]
  omega

/-- No keycode outside the modifier range names a modifier bit. -/
theorem modifier_ne {k : Byte} (hk : ¬(0xE0 ≤ k.toNat ∧ k.toNat ≤ 0xE7)) {b : Nat} (hb : b < 8) :
    BitVec.ofNat 8 (0xE0 + b) ≠ k := by
  rw [ne_eq, BitVec.toNat_eq, BitVec.toNat_ofNat]
  omega

/-- A modifier adds its bit (R310). -/
theorem gatherKey_modifier {ks : List Byte} {g : Gathered} (h : GatheredFrom ks g) {k : Byte}
    (hk : 0xE0 ≤ k.toNat ∧ k.toNat ≤ 0xE7) : GatheredFrom (ks ++ [k]) (gatherKey g k) := by
  have hothers : (ks ++ [k]).filter (fun k => !isModifier k) = ks.filter fun k => !isModifier k := by
    rw [List.filter_append, List.filter_singleton, isModifier, decide_eq_true hk]
    exact List.append_nil _
  rw [gatherKey, if_pos hk]
  refine ⟨fun b hb => ?_, by rw [hothers]; exact h.keys, by rw [hothers]; exact h.overflow⟩
  have hbit : ((1 : Byte) <<< (k.toNat - 0xE0)).getLsbD b = decide (k.toNat - 0xE0 = b) := by
    have hlt : k.toNat - 0xE0 < 8 := by omega
    exact (BitVec.getLsbD_twoPow ..).trans (by rw [decide_eq_true hlt, Bool.true_and])
  rw [BitVec.getLsbD_or, hbit, Bool.or_eq_true, h.mods b hb, decide_eq_true_eq, List.mem_append, List.mem_singleton,
    modifier_eq_iff hk hb]

/-- Another keycode takes a slot, or sets the overflow flag (R310). -/
theorem gatherKey_other {ks : List Byte} {g : Gathered} (h : GatheredFrom ks g) {k : Byte}
    (hk : ¬(0xE0 ≤ k.toNat ∧ k.toNat ≤ 0xE7)) : GatheredFrom (ks ++ [k]) (gatherKey g k) := by
  obtain ⟨hmods, hkeys, hovf⟩ := h
  have hothers : (ks ++ [k]).filter (fun k => !isModifier k) = (ks.filter fun k => !isModifier k) ++ [k] := by
    rw [List.filter_append, List.filter_singleton, isModifier, decide_eq_false hk]
    rfl
  have hmods' (b : Nat) (hb : b < 8) : g.mod.getLsbD b = true ↔ BitVec.ofNat 8 (0xE0 + b) ∈ ks ++ [k] := by
    rw [hmods b hb, List.mem_append, List.mem_singleton, or_iff_left (modifier_ne hk hb)]
  generalize ks.filter (fun k => !isModifier k) = others at hkeys hovf hothers
  have hlen : g.keys.length = min 6 others.length := by rw [hkeys, List.length_take]
  rw [gatherKey, if_neg hk]
  split
  case isTrue hroom =>
    have hshort : others.length < 6 := by change g.keys.length < 6 at hroom; omega
    refine ⟨hmods', ?_, ?_⟩
    · dsimp only
      rw [hothers, hkeys, List.take_of_length_le hshort.le, List.take_of_length_le (by simpa using hshort)]
    · dsimp only
      rw [hothers, hovf, List.length_append, List.length_singleton]
      omega
  case isFalse hfull =>
    have hlong : 6 ≤ others.length := by change ¬g.keys.length < 6 at hfull; omega
    refine ⟨hmods', ?_, ?_⟩
    · dsimp only
      rw [hothers, hkeys, List.take_append_of_le_length hlong]
    · rw [hothers, List.length_append, List.length_singleton]
      exact iff_of_true rfl (by omega)

/-- The fold gathers every keycode. -/
theorem gathered_spec (ks : List Byte) :
    GatheredFrom ks (ks.foldl gatherKey { mod := 0, ovf := false, keys := [] }) := by
  induction ks using List.reverseRecOn with
  | nil => exact ⟨by simp, by simp, by simp⟩
  | append_singleton ks k ih =>
    rw [List.foldl_append]
    by_cases hk : 0xE0 ≤ k.toNat ∧ k.toNat ≤ 0xE7
    · exact gatherKey_modifier ih hk
    · exact gatherKey_other ih hk

/-- The keycodes of the pressed cells, row by row (R310). -/
theorem pressedKeycodes_eq (s : State) :
    pressedKeycodes s = (List.range s.par.rows).flatMap fun r =>
      (List.range s.par.cols).filterMap fun c =>
        if gridGet s.scan.matrix false r c = true then some (gridGet s.par.layout 0 r c) else none := by
  unfold pressedKeycodes scanOrder
  rw [List.filter_flatMap, List.map_flatMap]
  congr 1
  funext r
  rw [List.filter_map, List.map_map, ← List.filterMap_eq_map, List.filterMap_filter]
  rfl

/-- Six slots hold a list of at most six keycodes, padded with 0. -/
theorem sixSlots : ∀ {ks : List Byte}, ks.length ≤ 6 →
    [ks.getD 0 0, ks.getD 1 0, ks.getD 2 0, ks.getD 3 0, ks.getD 4 0, ks.getD 5 0] =
      ks ++ List.replicate (6 - ks.length) 0
  | [], _ | [_], _ | [_, _], _ | [_, _, _], _ | [_, _, _, _], _ | [_, _, _, _, _], _ | [_, _, _, _, _, _], _ => rfl
  | _ :: _ :: _ :: _ :: _ :: _ :: _ :: _, h => absurd h (by simp only [List.length_cons]; omega)

/-- Settles O36: the fold over the pressed cells gathers each keycode in scan order. -/
theorem keyStateIsRebuilt : Obligations.KeyStateIsRebuilt := by
  intro s hen pressed others
  have hpressed : pressedKeycodes s = pressed := pressedKeycodes_eq s
  obtain ⟨hmods, hkeys, hovf⟩ := gathered_spec pressed
  refine ⟨reportState s, exec_getState_enabled hen, ?_, ?_, ?_⟩
  all_goals
    unfold reportState
    rw [hpressed]
    dsimp only
  · exact hmods
  · have hpad : 6 - (others.take 6).length = 6 - others.length := by rw [List.length_take]; omega
    rw [hkeys, sixSlots (List.length_take_le ..), hpad]
  · exact hovf

/-! ## REPORT_SEND -/

theorem exec_reportSend_enabled {s : State} (hen : MainEnabled .send s) :
    exec .reportSend s = andThen (trySend s) fun s' => .next (restartScan s') := if_pos hen

/-- A send that is not due does nothing (R285). -/
theorem trySend_notDue {s : State} (h : ¬SendDue s) : trySend s = .next s := if_neg h

/-- A due send leaves a busy endpoint selected (R287). -/
theorem trySend_busy {s : State} (h : SendDue s) (hbusy : kbdReady s = false) :
    trySend s = .next (selectEndpoint s.par.kbdEp s) := by
  have hbusy' : ¬kbdReady (selectEndpoint s.par.kbdEp s) = true := by simpa [kbdReady] using hbusy
  unfold trySend
  rw [if_pos h]
  exact if_neg hbusy'

/-- A due send to a ready endpoint commits the report and reloads the countdown (R285, R286). -/
theorem trySend_ready {s : State} (h : SendDue s) (hready : kbdReady s = true) (hfifo : s.kbd.fifo = [])
    (hkbd : s.par.kbdEp ≠ 0) :
    trySend s = .next { s with
      epSel := s.par.kbdEp
      kbd := { s.kbd with inPkt := some (reportBytes s.krs), rwal := false }
      ctl := { s.ctl with idleRemaining := s.ctl.idleDuration } } := by
  have hlen : (selectEndpoint s.par.kbdEp s).kbd.fifo.length = 0 := by simp [hfifo]
  have hwrite := fifoWriteAll_kbd (reportBytes s.krs) (selectEndpoint s.par.kbdEp s) hkbd (by omega)
  have hroom : 0 + (reportBytes s.krs).length ≤ Config.kbdReportLen := Nat.le_refl 8
  rw [hlen, if_pos hroom] at hwrite
  unfold trySend
  rw [if_pos h]
  dsimp only
  rw [if_pos (by simpa [kbdReady] using hready)]
  refine (congrArg (andThen · _) hwrite).trans ?_
  simp [kbdRearm, hfifo]

/-- Settles O37: the due send to a ready endpoint. -/
theorem reportIsSent : Obligations.ReportIsSent := by
  intro s hen hconf hzero hcfg hrwal hfifo hkbd
  have hready : kbdReady s = true := by simp [kbdReady, hcfg, hrwal]
  rw [exec_reportSend_enabled hen, trySend_ready ⟨hconf, hzero⟩ hready hfifo hkbd]
  rfl

/-- Settles O38: the send that is not due, and the one that finds the endpoint busy. -/
theorem reportIsHeldBack : Obligations.ReportIsHeldBack := by
  intro s hen t
  rw [exec_reportSend_enabled hen]
  refine ⟨fun hnot => ?_, fun hconf hzero hbusy => ?_⟩
  · rw [trySend_notDue (by rintro ⟨hconf, hzero⟩; simp [hconf, hzero] at hnot)]
    rfl
  · have hbusy : kbdReady s = false := by obtain h | h := hbusy <;> simp [kbdReady, h]
    rw [trySend_busy ⟨hconf, hzero⟩ hbusy]
    rfl

end Sys2Proof.Machine
end

section
/-! SUPPORT. The primitives as operations of their own (spec/40 R142 to R157, spec/46 R301), with the endpoint selected
that each is defined for. -/

namespace Sys2Proof.Machine

/-! ## Flags -/

/-- The counterpart of `onEp0_selected`. -/
theorem onKbdEp_selected {s : State} (h : s.epSel = s.par.kbdEp) (k : State → Result) : onKbdEp k s = k s := if_pos h

/-- Settles O44: each query runs with its endpoint selected and writes only the answer. -/
theorem flagQueries : Obligations.FlagQueries := by
  intro s
  refine ⟨fun hsel => ?_, fun hsel => ?_⟩
  · rw [exec_isSetupPending, exec_isSendReady, exec_isReceivePending, onEp0_selected hsel, onEp0_selected hsel,
      onEp0_selected hsel]
    exact ⟨rfl, rfl, rfl⟩
  · rw [exec_kbdReady, onKbdEp_selected hsel]
    rfl

/-- The status stage of a control read waits for the OUT packet (R152). -/
theorem exec_syncStatusStage_d2h {s : State} (hsel : s.epSel = 0) :
    exec (.syncStatusStage .d2h) s =
      if s.ep0.rxPend = true then .next (clearReceiveFlag s) else .refused .notEnabled := by
  change execSyncStatusStage .d2h s = _
  unfold execSyncStatusStage
  rw [onEp0_selected hsel]
  rfl

/-- The status stage of a control write waits for the endpoint to be ready (R152). -/
theorem exec_syncStatusStage_h2d {s : State} (hsel : s.epSel = 0) :
    exec (.syncStatusStage .h2d) s =
      if s.ep0.txReady = true then .next (clearSendFlag s) else .refused .notEnabled := by
  change execSyncStatusStage .h2d s = _
  unfold execSyncStatusStage
  rw [onEp0_selected hsel]
  rfl

/-- Settles O45: each operation runs on the selected endpoint, and the status stage decides its flag. -/
theorem flagOperations : Obligations.FlagOperations := by
  intro s hsel cleared sent
  rw [exec_clearSetupFlag, exec_clearSendFlag, exec_clearReceiveFlag, exec_stall, exec_syncStatusStage_d2h hsel,
    exec_syncStatusStage_h2d hsel]
  simp only [onEp0_selected hsel]
  exact ⟨rfl, rfl, rfl, rfl, fun hrx => if_pos hrx, fun htx => if_pos htx, fun hrx => if_neg (by simp [hrx]),
    fun htx => if_neg (by simp [htx])⟩

/-! ## FIFO accesses -/

/-- A FIFO access runs with either endpoint selected. -/
theorem onFifo_selected {s : State} (h : s.epSel = 0 ∨ s.epSel = s.par.kbdEp) (k : State → Result) :
    onFifo k s = k s := if_pos h

theorem exec_fifoRead {s : State} (h : s.epSel = 0 ∨ s.epSel = s.par.kbdEp) :
    exec .fifoRead s = .next (reply (.byte (fifoRead s).1) (fifoRead s).2) :=
  onFifo_selected h fun s => .next (reply (.byte (fifoRead s).1) (fifoRead s).2)

theorem exec_fifoWrite {s : State} (h : s.epSel = 0 ∨ s.epSel = s.par.kbdEp) (b : Byte) :
    exec (.fifoWrite b) s = fifoWrite b s := onFifo_selected h _

/-- Reading the keyboard endpoint's oldest byte. -/
theorem fifoRead_kbd {s : State} {b : Byte} {rest : List Byte} (hsel : s.epSel ≠ 0) (hf : s.kbd.fifo = b :: rest) :
    fifoRead s = (b, { s with kbd := { s.kbd with fifo := rest } }) := by
  simp only [fifoRead, selectedFifo, setSelectedFifo, hsel, hf, if_false]

/-- Reading an empty FIFO draws a free byte. -/
theorem fifoRead_empty {s : State} (hf : selectedFifo s = []) :
    fifoRead s = (Config.freeByte s.draws, { s with draws := s.draws + 1 }) := by
  simp only [fifoRead, hf, nextDraw]

/-- Settles O46: the accesses of the two FIFOs, by the rules of `fifoRead` and `fifoWrite`. -/
theorem fifoAccesses : Obligations.FifoAccesses := by
  intro s b rest
  have nonzero (hsel : s.epSel = s.par.kbdEp) (hkbd : s.par.kbdEp ≠ 0) : s.epSel ≠ 0 := hsel ▸ hkbd
  refine ⟨fun hsel hf => ?_, fun hsel hkbd hf => ?_, fun hempty => ⟨Config.freeByte s.draws, ?_⟩,
    fun hsel hroom => ?_, fun hsel hfull => ?_, fun hsel hkbd hroom => ?_, fun hsel hkbd hfull => ?_⟩
  · rw [exec_fifoRead (.inl hsel), fifoRead_ep0 hsel hf]
    rfl
  · rw [exec_fifoRead (.inr hsel), fifoRead_kbd (nonzero hsel hkbd) hf]
    rfl
  · obtain ⟨hsel, hf⟩ | ⟨hsel, hkbd, hf⟩ := hempty
    · rw [exec_fifoRead (.inl hsel), fifoRead_empty (by rw [selectedFifo, if_pos hsel, hf])]
      rfl
    · rw [exec_fifoRead (.inr hsel), fifoRead_empty (by rw [selectedFifo, if_neg (nonzero hsel hkbd), hf])]
      rfl
  · rw [exec_fifoWrite (.inl hsel), fifoWrite_ep0 hsel, if_pos hroom]
  · rw [exec_fifoWrite (.inl hsel), fifoWrite_ep0 hsel, if_neg (Nat.not_lt.mpr hfull)]
  · rw [exec_fifoWrite (.inr hsel), fifoWrite_kbd (nonzero hsel hkbd), if_pos hroom]
  · rw [exec_fifoWrite (.inr hsel), fifoWrite_kbd (nonzero hsel hkbd), if_neg (Nat.not_lt.mpr hfull)]

/-! ## Endpoints -/

theorem exec_configureEndpoint {e : EpNum} {s : State} (h : e = 0 ∨ e = s.par.kbdEp) :
    exec (.configureEndpoint e) s = .next (reply (.bit (cfgAnswer s)) (configureEndpoint e s)) := if_pos h

/-- Settles O47: configuring writes one endpoint, by its number. -/
theorem endpointOperations : Obligations.EndpointOperations := by
  intro s n a hkbd
  refine ⟨rfl, rfl, ?_, ?_, fun hsel => ?_⟩
  · rw [exec_configureEndpoint (.inl rfl)]
    rfl
  · rw [exec_configureEndpoint (.inr rfl), configureEndpoint_kbd_eq hkbd]
    rfl
  · rw [exec_kbdRearm, onKbdEp_selected hsel]
    rfl

/-! ## Pins -/

/-- A row is driven when its pin is an output at the active level (R53, R54). -/
theorem rowDriven_iff (s : State) (q : Nat) :
    rowDriven s q = true ↔ s.pins.rowDir[q]? = some true ∧ s.pins.rowLvl[q]? = some s.par.activeLevel := by
  simp only [rowDriven, Bool.and_eq_true, beq_iff_eq, List.getD_eq_getElem?_getD]
  cases s.pins.rowDir[q]? <;> cases s.pins.rowLvl[q]? <;> simp

/-- A column reads the active level exactly when a driven row reaches it (R54). -/
theorem readLevel_eq_active_iff (s : State) (c : Nat) :
    readLevel s c = s.par.activeLevel ↔
      ∃ q, q < s.par.rows ∧ rowDriven s q = true ∧ gridGet s.sw false q c = true := by
  have hany : ((List.range s.par.rows).any fun r => rowDriven s r && gridGet s.sw false r c) = true ↔
      ∃ q, q < s.par.rows ∧ rowDriven s q = true ∧ gridGet s.sw false q c = true := by
    simp
  rw [← hany]
  unfold readLevel
  split
  case isTrue h => exact iff_of_true rfl h
  case isFalse h => exact iff_of_false (by simp) h

/-- Settles O49: the level read is `readLevel_eq_active_iff`. -/
theorem pinPrimitives : Obligations.PinPrimitives := by
  intro s r c v
  refine ⟨fun hr => ⟨if_pos hr, if_pos hr⟩, fun hc hlvl => ⟨readLevel s c, if_pos hc, ?_⟩⟩
  simp only [readLevel_eq_active_iff, rowDriven_iff, and_assoc]

end Sys2Proof.Machine
end

section
/-! SUPPORT. Where the machine stops (spec/60 R336), and the two hangs it does not leave (spec/70 R385, R386). -/

namespace Sys2Proof.Machine

/-! ## Outcomes the machine goes on from -/

/-- The step that has this outcome answers a next state: the outcome's own, or the one after a turn that passes. -/
def GoesOn (o : Result) : Prop := ∀ s, ∃ t, orPass s o = .next t

theorem goesOn_next (t : State) : GoesOn (.next t) := fun _ => ⟨t, rfl⟩

theorem goesOn_refused {r : Refusal} (h : r ∈ [Refusal.notEnabled, .moveImpossible, .badOperand]) :
    GoesOn (.refused r) := fun s => ⟨s, orPass_passes h s⟩

theorem goesOn_notEnabled : GoesOn (.refused .notEnabled) := goesOn_refused (by simp)

theorem goesOn_moveImpossible : GoesOn (.refused .moveImpossible) := goesOn_refused (by simp)

theorem goesOn_badOperand : GoesOn (.refused .badOperand) := goesOn_refused (by simp)

/-- A guarded operation goes on if it does where the guard holds, and its refusal lets the turn pass. -/
theorem goesOn_guarded {c : Prop} [Decidable c] {o : Result} {r : Refusal} (ho : c → GoesOn o)
    (hr : GoesOn (.refused r)) : GoesOn (if c then o else .refused r) := by
  split
  case isTrue h => exact ho h
  case isFalse => exact hr

/-! ## The one stop -/

/-- A fixed reply waits beside an unread payload of 63 or 64 bytes. -/
def OverrunWaits (s : State) : Prop := s.disp.dphase = .fxTx ∧ s.ep0.rxPend = true ∧ 63 ≤ s.ep0.fifo.length

section
variable {s : State} (h : InvParts s)
include h

/-- A dispatch in progress has endpoint 0 selected. -/
theorem selected_of_phase {ph : DPhase} (hphase : s.disp.dphase = ph) (hbusy : ph ≠ .idle) : s.epSel = 0 :=
  h.selected (hphase ▸ hbusy)

/-- A FIFO of endpoint 0 with more than 8 bytes holds an OUT payload (R47, R160, R336). -/
theorem rxPend_of_long_fifo (hlen : 8 < s.ep0.fifo.length) : s.ep0.rxPend = true := by
  cases hsetup : s.ep0.setupPend with
  | true =>
    have := (h.ep0.setupFifo hsetup).1
    omega
  | false =>
    by_contra hrx
    rw [h.ep0.fifoEmpty hsetup (by simpa using hrx)] at hlen
    simp at hlen

omit h in
theorem comm_goesOn : GoesOn (exec .comm s) := by
  by_cases hen : CommEnabled s
  · obtain ⟨t, ht, -, -⟩ := entryCompletes s hen
    rw [ht]
    exact goesOn_next t
  · change GoesOn (execComm s)
    rw [execComm, if_neg hen]
    exact goesOn_notEnabled

/-- P_FX_TX stops only where its reply, of at most two bytes, does not fit (R336). -/
theorem pFxTx_goesOn_or_overruns : GoesOn (exec .pFxTx s) ∨ (exec .pFxTx s = .fault .fifoOverrun ∧ OverrunWaits s) := by
  by_cases hen : SendPhaseEnabled .fxTx s
  · obtain ⟨-, hfx⟩ := (phaseInv_fxTx_iff hen.1).mp h.phase
    rw [exec_pFxTx_enabled hen (selected_of_phase h hen.1 (by decide)) h.ep0.fifoSize]
    split
    case isTrue => exact .inl (goesOn_next _)
    case isFalse hover => exact .inr ⟨rfl, hen.1, rxPend_of_long_fifo h (by omega), by omega⟩
  · left
    change GoesOn (execPFxTx s)
    rw [execPFxTx, if_neg hen]
    exact goesOn_notEnabled

/-- The transfer registers stay inside the source (R242), and the FIFO is empty when the send branch runs. -/
theorem pInLoop_goesOn : GoesOn (exec .pInLoop s) := by
  by_cases hen : InLoopEnabled s
  · have hsel := selected_of_phase h hen.1 (by decide)
    obtain ⟨hin, -⟩ := (phaseInv_inLoop_iff hen.1).mp h.phase
    rw [← sourceBytes_length h.params] at hin
    rw [exec_pInLoop_enabled hen hsel]
    split
    case isTrue => exact goesOn_next _
    split
    case isTrue => exact goesOn_next _
    case isFalse hsetup hrx =>
      have hfifo := h.ep0.fifoEmpty (by simpa using hsetup) (by simpa using hrx)
      rw [sendChunk_next hsel hfifo (by omega)]
      exact goesOn_next _
  · change GoesOn (execPInLoop s)
    rw [execPInLoop, if_neg hen]
    exact goesOn_notEnabled

theorem pStOut_goesOn : GoesOn (exec .pStOut s) :=
  goesOn_guarded (fun hen => by
    rw [onEp0_selected (selected_of_phase h hen.1 (by decide))]
    exact goesOn_next _) goesOn_notEnabled

theorem pStIn_goesOn : GoesOn (exec .pStIn s) :=
  goesOn_guarded (fun hen => by
    rw [onEp0_selected (selected_of_phase h hen.1 (by decide))]
    exact goesOn_next _) goesOn_notEnabled

theorem pAddrAck_goesOn : GoesOn (exec .pAddrAck s) :=
  goesOn_guarded (fun hen => by
    rw [onEp0_selected (selected_of_phase h hen.1 (by decide))]
    split
    · exact goesOn_next _
    all_goals exact goesOn_notEnabled) goesOn_notEnabled

theorem pOutDrain_goesOn : GoesOn (exec .pOutDrain s) :=
  goesOn_guarded (fun hen => by
    rw [onEp0_selected (selected_of_phase h hen.1 (by decide))]
    split
    · exact goesOn_next _
    · exact goesOn_next _) goesOn_notEnabled

/-- Every re-arm leaves the keyboard FIFO empty, so a report always fits (R336). -/
theorem reportSend_goesOn : GoesOn (exec .reportSend s) := by
  by_cases hen : MainEnabled .send s
  · rw [exec_reportSend_enabled hen]
    by_cases hdue : SendDue s
    · cases hready : kbdReady s with
      | true =>
        rw [trySend_ready hdue hready h.kbd.fifo (kbdEp_ne_zero h.params)]
        exact goesOn_next _
      | false =>
        rw [trySend_busy hdue hready]
        exact goesOn_next _
    · rw [trySend_notDue hdue]
      exact goesOn_next _
  · change GoesOn (execReportSend s)
    rw [execReportSend, if_neg hen]
    exact goesOn_notEnabled

omit h in
/-- A move of the environment is taken, or is not possible, or has no operand of its range. -/
theorem envMove_goesOn {i : Instr} (hi : i.format = .envMove) : GoesOn (exec i s) := by
  cases i
  case hostSetup b =>
    exact goesOn_guarded (fun _ => goesOn_guarded (fun _ => goesOn_next _) goesOn_moveImpossible) goesOn_badOperand
  case hostIn0 =>
    cases hpkt : s.ep0.inPkt with
    | none =>
      rw [exec_hostIn0_none hpkt]
      exact goesOn_moveImpossible
    | some p =>
      rw [exec_hostIn0_some hpkt]
      exact goesOn_guarded (fun _ => goesOn_next _) goesOn_moveImpossible
  case hostOut p =>
    exact goesOn_guarded (fun _ => goesOn_guarded (fun _ => goesOn_next _) goesOn_moveImpossible) goesOn_badOperand
  case busReset => exact goesOn_next _
  case sofTick => exact goesOn_next _
  case spuriousComm => exact goesOn_next _
  case hostInk =>
    cases hpkt : s.kbd.inPkt with
    | none =>
      rw [exec_hostInk_none hpkt]
      exact goesOn_moveImpossible
    | some p =>
      rw [exec_hostInk_some hpkt]
      exact goesOn_guarded (fun _ => goesOn_next _) goesOn_moveImpossible
  case keys r c v => exact goesOn_guarded (fun _ => goesOn_next _) goesOn_badOperand
  case hostStalled => exact goesOn_guarded (fun _ => goesOn_next _) goesOn_moveImpossible
  all_goals cases hi

/-- From the invariant an agent's step stops only by the overrun of a fixed reply. -/
theorem agentStep_goesOn_or_overruns {i : Instr} (hi : i.isAgentStep = true) :
    GoesOn (exec i s) ∨ (exec i s = .fault .fifoOverrun ∧ OverrunWaits s) := by
  cases i
  case pFxTx => exact pFxTx_goesOn_or_overruns h
  all_goals left
  case por => exact goesOn_next _
  case eor => exact goesOn_guarded (fun _ => goesOn_next _) goesOn_notEnabled
  case sof => exact goesOn_guarded (fun _ => goesOn_next _) goesOn_notEnabled
  case comm => exact comm_goesOn
  case pInLoop => exact pInLoop_goesOn h
  case pStOut => exact pStOut_goesOn h
  case pStIn => exact pStIn_goesOn h
  case pAddrAck => exact pAddrAck_goesOn h
  case pOutDrain => exact pOutDrain_goesOn h
  case scanRow => exact goesOn_guarded (fun _ => goesOn_next _) goesOn_notEnabled
  case getState => exact goesOn_guarded (fun _ => goesOn_next _) goesOn_notEnabled
  case reportSend => exact reportSend_goesOn h
  case hostSetup | hostIn0 | hostOut | busReset | sofTick | spuriousComm | hostInk | keys | hostStalled =>
    exact envMove_goesOn rfl
  all_goals cases hi

/-- The step from the invariant answers a next state, or is the overrun of a fixed reply. -/
theorem step_next_or_overruns : (∃ t, step s = .next t) ∨ (step s = .fault .fifoOverrun ∧ OverrunWaits s) := by
  cases hagent : (nextMove s).isAgentStep with
  | false => exact .inl ⟨_, step_of_not_agentStep hagent⟩
  | true =>
    rw [step_of_agentStep hagent]
    obtain hgo | ⟨hfault, hwaits⟩ := agentStep_goesOn_or_overruns (passTurn_keeps h) hagent
    · exact .inl (hgo _)
    · rw [hfault]
      exact .inr ⟨rfl, hwaits⟩

end

/-- Settles O54: the overrun needs a payload of 63 bytes beside a fixed reply, which H7 excludes. -/
theorem onlyOverrunStops : Obligations.OnlyOverrunStops := by
  intro s hinv
  have hstep := step_next_or_overruns ((inv_iff_parts s).mp hinv)
  refine ⟨hstep, fun hduty => hstep.resolve_right ?_⟩
  rintro ⟨-, hphase, hrx, hlen⟩
  rw [hduty hphase hrx] at hlen
  simp at hlen

/-! ## The hangs -/

/-- While a dispatch waits and its own phase step is not enabled, only the environment moves (R81, R385). -/
theorem envMove_of_stuck {i : Instr} {s t : State} (hbusy : s.disp.dphase ≠ .idle) (hi : i.isAgentStep = true)
    (hpor : i ≠ .por)
    (hwait : ∀ j ∈ [Instr.pFxTx, .pStIn, .pAddrAck, .pStOut, .pOutDrain, .pInLoop], exec j s = .refused .notEnabled)
    (h : exec i s = .next t) : i.format = .envMove := by
  obtain ⟨hidle, -⟩ := exclusivityAndPriority s
  cases hfmt : i.format
  case envMove => rfl
  case setup8 | primitive => simp [Instr.isAgentStep, hfmt] at hi
  case event =>
    cases i
    case por => exact absurd rfl hpor
    all_goals cases hfmt
  case handlerStep | mainStep =>
    have hmem : i ∈ [Instr.eor, .sof, .comm, .scanRow, .getState, .reportSend] := by
      cases i
      case eor | sof | comm | scanRow | getState | reportSend => simp
      all_goals cases hfmt
    rw [hidle hbusy i hmem] at h
    cases h
  case dispatchPhaseStep =>
    have hmem : i ∈ [Instr.pFxTx, .pStIn, .pAddrAck, .pStOut, .pOutDrain, .pInLoop] := by
      cases i
      case pFxTx | pStIn | pAddrAck | pStOut | pOutDrain | pInLoop => simp
      all_goals cases hfmt
    rw [hwait i hmem] at h
    cases h

/-- What a move of the environment does to endpoint 0 (R160 to R168): nothing, a reset, a SETUP packet, the collection
of a packet, or an OUT packet, for which no SETUP may be pending. -/
theorem envMove_ep0 {i : Instr} (hi : i.format = .envMove) {s t : State} (h : exec i s = .next t) :
    t.disp = s.disp ∧
    (t.ep0 = s.ep0 ∨
      (t.ep0.cfg = false ∧ t.ep0.setupPend = false ∧ t.ep0.txReady = false ∧ t.ep0.rxPend = false) ∨
      (s.ep0.cfg = true ∧ t.ep0.setupPend = true ∧ t.ep0.rxPend = false) ∨
      (s.ep0.cfg = true ∧ t.ep0 = { s.ep0 with inPkt := none, txReady := true }) ∨
      (s.ep0.cfg = true ∧ s.ep0.setupPend = false)) := by
  obtain ⟨-, hdisp, -, -, -⟩ := outside_eq_next (.inl hi) h
  refine ⟨hdisp, ?_⟩
  cases envMove_eq_next hi h
  case busReset => exact .inr (.inl ⟨rfl, rfl, rfl, rfl⟩)
  case setup b _ hcfg => exact .inr (.inr (.inl ⟨hcfg, rfl, rfl⟩))
  case in0 p hcfg _ => exact .inr (.inr (.inr (.inl ⟨hcfg, rfl⟩)))
  case out p _ hpossible =>
    obtain ⟨hcfg, -, hsetup, -⟩ := hpossible
    exact .inr (.inr (.inr (.inr ⟨hcfg, hsetup⟩)))
  case sofTick | spuriousComm | inK | keys | stalled => exact .inl rfl

/-- With no flag set and endpoint 0 not configured no phase step is enabled, and no move but a bus reset reaches the
endpoint (R386). -/
theorem exec_keeps_stuckAfterReset {i : Instr} {s t : State} (hi : i.isAgentStep = true) (hpor : i ≠ .por)
    (h : exec i s = .next t) (hs : StuckAfterReset s) : StuckAfterReset t ∧ t.disp.dphase = s.disp.dphase := by
  obtain ⟨hbusy, hcfg, hsetup, htx, hrx⟩ := hs
  obtain ⟨hfx, hstIn, hack, hstOut, hdrain, hloop⟩ := waitsHold s
  have hwait : ∀ j ∈ [Instr.pFxTx, .pStIn, .pAddrAck, .pStOut, .pOutDrain, .pInLoop],
      exec j s = .refused .notEnabled := by
    simp only [List.forall_mem_cons]
    exact ⟨hfx (.inr htx), hstIn (.inr htx), hack (.inr htx), hstOut (.inr hrx), hdrain (.inr ⟨hrx, hsetup⟩),
      hloop (.inr ⟨htx, hrx, hsetup⟩), List.forall_mem_nil _⟩
  obtain ⟨hdisp, hep0⟩ := envMove_ep0 (envMove_of_stuck hbusy hi hpor hwait h) h
  refine ⟨?_, by rw [hdisp]⟩
  rw [StuckAfterReset, hdisp]
  obtain hsame | hclear | ⟨hcfg', -⟩ | ⟨hcfg', -⟩ | ⟨hcfg', -⟩ := hep0
  · rw [hsame]
    exact ⟨hbusy, hcfg, hsetup, htx, hrx⟩
  · exact ⟨hbusy, hclear⟩
  all_goals exact absurd (hcfg.symm.trans hcfg') (by decide)

/-- With no OUT pending P_ST_OUT waits, and no OUT arrives while a SETUP is pending or endpoint 0 is not configured
(R385). -/
theorem exec_keeps_stuckInStatusOut {i : Instr} {s t : State} (hi : i.isAgentStep = true) (hpor : i ≠ .por)
    (h : exec i s = .next t) (hs : StuckInStatusOut s) : StuckInStatusOut t := by
  obtain ⟨hphase, hrx, hblocked⟩ := hs
  have other {ph : DPhase} (hph : DPhase.stOut ≠ ph) : s.disp.dphase ≠ ph := hphase ▸ hph
  obtain ⟨hfx, hstIn, hack, hstOut, hdrain, hloop⟩ := waitsHold s
  have hwait : ∀ j ∈ [Instr.pFxTx, .pStIn, .pAddrAck, .pStOut, .pOutDrain, .pInLoop],
      exec j s = .refused .notEnabled := by
    simp only [List.forall_mem_cons]
    exact ⟨hfx (.inl (other (by decide))), hstIn (.inl (other (by decide))), hack (.inl (other (by decide))),
      hstOut (.inr hrx), hdrain (.inl (other (by decide))), hloop (.inl (other (by decide))), List.forall_mem_nil _⟩
  obtain ⟨hdisp, hep0⟩ := envMove_ep0 (envMove_of_stuck (other (by decide)) hi hpor hwait h) h
  rw [StuckInStatusOut, hdisp]
  obtain hsame | ⟨hcfg, -, -, hrx'⟩ | ⟨-, hsetup, hrx'⟩ | ⟨-, hcollect⟩ | ⟨hcfg, hsetup⟩ := hep0
  · rw [hsame]
    exact ⟨hphase, hrx, hblocked⟩
  · exact ⟨hphase, hrx', .inr hcfg⟩
  · exact ⟨hphase, hrx', .inl hsetup⟩
  · rw [hcollect]
    exact ⟨hphase, hrx, hblocked⟩
  · simp [hcfg, hsetup] at hblocked

/-- Settles O60: a step is a turn that passes, or a move of the environment. -/
theorem hangsAreNeverLeft : Obligations.HangsAreNeverLeft := by
  intro s t hpor hstep
  obtain ⟨hexec, hagent⟩ | rfl := step_eq_next hstep
  · exact ⟨exec_keeps_stuckAfterReset (s := passTurn s) hagent hpor hexec,
      exec_keeps_stuckInStatusOut (s := passTurn s) hagent hpor hexec⟩
  · exact ⟨fun hs => ⟨hs, rfl⟩, id⟩

end Sys2Proof.Machine
end

section
/-! SUPPORT. Which operation writes which state element (spec/10, spec/41 R189, spec/42 R218, spec/45 R284, spec/60
R350): the control registers, the dispatcher's phase, and everything else. -/

namespace Sys2Proof.Machine

/-! ## The status stage and the report send, whatever the keyboard endpoint's number -/

/-- The control registers after APPLY_CFG (R213, R214). -/
theorem applyCfg_ctl (v : Byte) (s : State) :
    (applyCfg v s).ctl =
      if v = 1 ∧ s.ctl.enumState = .addressed ∧ cfgAnswer s = true then
        { s.ctl with cfgValue := 1, enumState := .configured, idleDuration := 500, idleRemaining := 0 }
      else if v = 0 ∧ s.ctl.enumState = .configured then { s.ctl with cfgValue := 0, enumState := .addressed }
      else { s.ctl with cfgValue := v } := by
  unfold applyCfg
  dsimp only
  by_cases hup : v = 1 ∧ s.ctl.enumState = .addressed
  · obtain ⟨rfl, he⟩ := hup
    rw [if_pos ⟨rfl, he⟩]
    by_cases hok : cfgAnswer s = true
    · rw [if_pos hok, if_pos ⟨rfl, he, hok⟩]
      simp
    · rw [if_neg hok, if_neg (fun h => hok h.2.2), if_neg (fun h => absurd h.1 (by decide))]
      simp
  · have hup' : ¬(v = 1 ∧ s.ctl.enumState = .addressed ∧ cfgAnswer s = true) := fun ⟨hv, he, _⟩ => hup ⟨hv, he⟩
    rw [if_neg hup, if_neg hup']
    by_cases hdown : v = 0 ∧ s.ctl.enumState = .configured
    · rw [if_pos hdown, if_pos hdown, hdown.1]
    · rw [if_neg hdown, if_neg hdown]

/-- What the status stage writes outside the control registers and the endpoints: the dispatcher's phase alone. -/
structure PhaseOnly (s t : State) : Prop where
  disp : t.disp = { s.disp with dphase := t.disp.dphase }
  scan : t.scan = s.scan
  krs : t.krs = s.krs
  uaddr : t.uaddr = s.uaddr
  adden : t.adden = s.adden
  sw : t.sw = s.sw
  par : t.par = s.par

theorem applyCfg_leaves (v : Byte) (s : State) :
    (applyCfg v s).disp = s.disp ∧ PhaseOnly s (applyCfg v s) := by
  unfold applyCfg
  dsimp only
  split
  · split
    · exact ⟨by simp, ⟨by simp, by simp, by simp, by simp, by simp, by simp, by simp⟩⟩
    · exact ⟨by simp, ⟨by simp, by simp, by simp, by simp, by simp, by simp, by simp⟩⟩
  · split <;> exact ⟨rfl, ⟨rfl, rfl, rfl, rfl, rfl, rfl, rfl⟩⟩

/-- The status stage ends the dispatch, or waits for the address to be acknowledged (R246). -/
theorem applyPost_leaves (s : State) :
    PhaseOnly s (applyPost s) ∧ ((applyPost s).disp.dphase = .idle ∨ (applyPost s).disp.dphase = .addrAck) := by
  unfold applyPost
  split
  case h_2 => exact ⟨⟨rfl, rfl, rfl, rfl, rfl, rfl, rfl⟩, .inr rfl⟩
  case h_3 v _ =>
    obtain ⟨hdisp, -, hscan, hkrs, huaddr, hadden, hsw, hpar⟩ := applyCfg_leaves v s
    exact ⟨⟨by simp [endDispatch, setPhase, hdisp], hscan, hkrs, huaddr, hadden, hsw, hpar⟩, .inl rfl⟩
  all_goals exact ⟨⟨rfl, rfl, rfl, rfl, rfl, rfl, rfl⟩, .inl rfl⟩

/-- The report send writes the selection, the endpoints, and the countdown when the send is due (R285). -/
theorem trySend_leaves {s t : State} (h : trySend s = .next t) :
    ∃ sel ep0 kbd ctl, t = { s with epSel := sel, ep0 := ep0, kbd := kbd, ctl := ctl } ∧
      (ctl = s.ctl ∨ SendDue s ∧ ctl = { s.ctl with idleRemaining := s.ctl.idleDuration }) := by
  unfold trySend at h
  split at h
  case isTrue hdue =>
    dsimp only at h
    split at h
    case isTrue =>
      obtain ⟨u, hu, h⟩ := andThen_eq_next h
      cases h
      have hu := fifoWriteAll_eq_next hu
      split at hu
      all_goals
        subst hu
        exact ⟨_, _, _, _, rfl, .inr ⟨hdue, rfl⟩⟩
    case isFalse =>
      cases h
      exact ⟨_, _, _, _, rfl, .inl rfl⟩
  case isFalse =>
    cases h
    exact ⟨_, _, _, _, rfl, .inl rfl⟩

/-! ## The control registers -/

/-- The control registers after an operation on a state `s`, one constructor for each way it writes them (spec/42 R218,
spec/45 R284). -/
inductive ControlStep (s : State) : Instr → Control → Prop
  | keep {i : Instr} (h : i ∉ [Instr.por, .eor, .pAddrAck, .pStIn]) : ControlStep s i s.ctl
  | por : ControlStep s .por (State.initial s.par).ctl
  | eor : ControlStep s .eor { s.ctl with enumState := .default }
  | sof : ControlStep s .sof { s.ctl with idleRemaining := countDown s.ctl.idleRemaining }
  | addrAck : ControlStep s .pAddrAck { s.ctl with enumState := .addressed }
  | noEffect (h : ∀ v, s.disp.post ≠ .cfg v) : ControlStep s .pStIn s.ctl
  | cfg {v : Byte} (h : s.disp.post = .cfg v) (hup : ¬(v = 1 ∧ s.ctl.enumState = .addressed ∧ cfgAnswer s = true))
      (hdown : ¬(v = 0 ∧ s.ctl.enumState = .configured)) : ControlStep s .pStIn { s.ctl with cfgValue := v }
  | up (h : s.disp.post = .cfg 1) (he : s.ctl.enumState = .addressed) (hok : cfgAnswer s = true) :
      ControlStep s .pStIn
        { s.ctl with cfgValue := 1, enumState := .configured, idleDuration := 500, idleRemaining := 0 }
  | down (h : s.disp.post = .cfg 0) (he : s.ctl.enumState = .configured) :
      ControlStep s .pStIn { s.ctl with cfgValue := 0, enumState := .addressed }
  | idle {d : Word16} (h : s.disp.post = .idle d) : ControlStep s .pStIn { s.ctl with idleDuration := d }
  | proto {b : Bool} (h : s.disp.post = .proto b) : ControlStep s .pStIn { s.ctl with protocolMode := b }
  | report (hdue : SendDue s) : ControlStep s .reportSend { s.ctl with idleRemaining := s.ctl.idleDuration }

/-- The status stage writes the control registers by its effect (R246). -/
theorem applyPost_controlStep (s : State) : ControlStep s .pStIn (applyPost (clearSendFlag s)).ctl := by
  unfold applyPost
  cases hpost : s.disp.post <;> simp only [clearSendFlag_disp, hpost]
  case none => exact .noEffect (by simp [hpost])
  case addr a => exact .noEffect (by simp [hpost])
  case cfg v =>
    have hctl : (endDispatch (applyCfg v (clearSendFlag s))).ctl = _ := applyCfg_ctl v (clearSendFlag s)
    rw [hctl]
    split
    case isTrue h =>
      obtain ⟨rfl, he, hok⟩ := h
      exact .up hpost he hok
    split
    case isTrue h =>
      obtain ⟨rfl, he⟩ := h
      exact .down hpost he
    case isFalse hup hdown => exact .cfg hpost hup hdown
  case idle d => exact .idle hpost
  case proto b => exact .proto hpost

/-- The four operations that write `enum_state` are steps of the block. -/
theorem enumWriter_format : ∀ i ∈ [Instr.por, .eor, .pAddrAck, .pStIn],
    i.isRequest = false ∧ i.format ≠ .envMove ∧ i.format ≠ .primitive := by
  decide

/-- Every operation writes the control registers in one of the ways of `ControlStep`. -/
theorem exec_controlStep {i : Instr} {s t : State} (h : exec i s = .next t) : ControlStep s i t.ctl := by
  obtain hreq | hout | hmem := format_cases i
  · rw [(request_frame hreq h).ctl]
    exact .keep fun hmem => by simp [(enumWriter_format i hmem).1] at hreq
  · rw [(outside_eq_next hout h).1]
    exact .keep fun hmem => hout.elim (enumWriter_format i hmem).2.1 (enumWriter_format i hmem).2.2
  · simp only [List.cons_append, List.nil_append, List.mem_cons, List.not_mem_nil, or_false] at hmem
    obtain rfl | rfl | rfl | rfl | rfl | rfl | rfl | rfl | rfl | rfl | rfl | rfl | rfl := hmem
    · cases h
      exact .por
    · obtain ⟨-, rfl⟩ := eor_eq_next h
      exact .eor
    · obtain ⟨-, rfl⟩ := sof_eq_next h
      exact .sof
    · rw [(comm_frame h).ctl]
      exact .keep (by simp)
    · obtain ⟨-, -, rfl⟩ := pFxTx_eq_next h
      exact .keep (by simp)
    · rw [(pInLoop_frame h).1.ctl]
      exact .keep (by simp)
    · obtain ⟨-, -, rfl⟩ := pStOut_eq_next h
      exact .keep (by simp)
    · obtain ⟨-, -, rfl⟩ := pStIn_eq_next h
      exact applyPost_controlStep s
    · obtain ⟨-, -, a, -, rfl⟩ := pAddrAck_eq_next h
      exact .addrAck
    · rw [(pOutDrain_frame h).1.ctl]
      exact .keep (by simp)
    · rw [(scanRow_frame h).ctl]
      exact .keep (by simp)
    · obtain ⟨-, rfl⟩ := getState_eq_next h
      exact .keep (by simp)
    · obtain ⟨-, u, hu, rfl⟩ := reportSend_eq_next h
      obtain ⟨sel, ep0, kbd, ctl, rfl, rfl | ⟨hdue, rfl⟩⟩ := trySend_leaves hu
      · exact .keep (by simp)
      · exact .report hdue

/-- Settles O56: the writes of `enum_state` among the ways of `ControlStep`. -/
theorem enumerationTransitions : Obligations.EnumerationTransitions := by
  intro i s t h before up down
  have hstep := exec_controlStep h
  generalize t.ctl = c at hstep
  cases hstep
  case keep hi =>
    simp only [List.mem_cons, List.not_mem_nil, or_false, not_or] at hi
    obtain ⟨hpor, heor, hack, hst⟩ := hi
    exact ⟨fun h => (h.elim hpor heor).elim, fun h => (h.elim hack fun h => hst h.1).elim, fun h => (hst h.1).elim,
      fun _ _ _ _ _ => rfl⟩
  case por => simp [up, down, State.initial]
  case eor => simp [up, down]
  case addrAck => simp [up, down]
  case sof => simp [up, down, before]
  case report => simp [up, down, before]
  case noEffect hpost => simp [up, down, hpost, before]
  case idle d hpost => simp [up, down, hpost, before]
  case proto b hpost => simp [up, down, hpost, before]
  case cfg v hpost hup hdown =>
    have hup' : ¬up := fun ⟨_, he, hp, hok⟩ => hup ⟨by rw [hpost] at hp; exact PostEffect.cfg.inj hp, he, hok⟩
    have hdown' : ¬down := fun ⟨_, he, hp⟩ => hdown ⟨by rw [hpost] at hp; exact PostEffect.cfg.inj hp, he⟩
    exact ⟨fun h => h.elim nofun nofun, fun h => h.elim nofun fun h => absurd h hdown', fun h => absurd h hup',
      fun _ _ _ _ _ => rfl⟩
  case up hpost he hok => simp [up, down, before, hpost, he, hok]
  case down hpost he => simp [up, down, before, hpost, he]

/-- Settles O57: the writes of the idle registers among the ways of `ControlStep`. -/
theorem idleRegisterWrites : Obligations.IdleRegisterWrites := by
  intro i s t h
  have hstep := exec_controlStep h
  generalize t.ctl = c at hstep
  cases hstep
  case por => exact ⟨fun _ => .inl ⟨rfl, rfl⟩, fun _ => .inl ⟨rfl, rfl⟩⟩
  case sof =>
    refine ⟨fun hne => absurd rfl hne, fun hne => .inr (.inl ⟨rfl, ?_⟩)⟩
    have hpos : s.ctl.idleRemaining.toNat ≠ 0 := fun h0 =>
      hne (BitVec.eq_of_toNat_eq (by rw [countDown_toNat, h0]))
    dsimp only
    rw [countDown_toNat]
    omega
  case idle d hpost => exact ⟨fun _ => .inr (.inl ⟨rfl, hpost⟩), fun hne => absurd rfl hne⟩
  case up hpost he hok =>
    exact ⟨fun _ => .inr (.inr ⟨rfl, hpost, he, rfl, rfl⟩), fun _ => .inr (.inr (.inl ⟨rfl, hpost, he, rfl, rfl⟩))⟩
  case report hdue =>
    exact ⟨fun hne => absurd rfl hne, fun _ => .inr (.inr (.inr ⟨rfl, hdue.1, hdue.2, rfl⟩))⟩
  all_goals exact ⟨fun hne => absurd rfl hne, fun hne => absurd rfl hne⟩

/-! ## The phase graph -/

/-- How one operation may move the dispatcher (R189): along an edge of the graph, and by the step of its phase. -/
def PhaseMove (i : Instr) (a b : DPhase) : Prop :=
  phaseEdge a b = true ∧ (a = .idle → b ≠ .idle → i = .comm ∨ i.isRequest = true) ∧
  (a ≠ .idle → b ≠ a →
    (a, i) ∈ [(DPhase.fxTx, Instr.pFxTx), (.inLoop, .pInLoop), (.stOut, .pStOut), (.stIn, .pStIn),
      (.addrAck, .pAddrAck), (.outDrain, .pOutDrain)])

theorem phaseMove_stay (i : Instr) (a : DPhase) : PhaseMove i a a :=
  ⟨by cases a <;> rfl, fun h h' => absurd h h', fun _ h => absurd rfl h⟩

/-- The step of a phase moves along an edge from it. -/
theorem phaseMove_step {i : Instr} {a b : DPhase} (ha : a ≠ .idle) (hedge : phaseEdge a b = true)
    (hmem : (a, i) ∈ [(DPhase.fxTx, Instr.pFxTx), (.inLoop, .pInLoop), (.stOut, .pStOut), (.stIn, .pStIn),
      (.addrAck, .pAddrAck), (.outDrain, .pOutDrain)]) : PhaseMove i a b :=
  ⟨hedge, fun h => absurd h ha, fun _ _ => hmem⟩

/-- A handler starts a phase other than P_ADDR_ACK (R189). -/
theorem phaseMove_start {i : Instr} (hi : i = .comm ∨ i.isRequest = true) {s : State} {d : Dispatcher}
    (h : Started s d) : PhaseMove i .idle d.dphase := by
  refine ⟨?_, fun _ _ => hi, fun h => absurd rfl h⟩
  unfold Started at h
  cases hphase : d.dphase <;> rw [hphase] at h
  case addrAck => exact h.elim
  all_goals rfl

/-- The transfer loop ends its data stage or goes on (R244). -/
theorem advanceXfer_dphase (n : Nat) (d : Dispatcher) :
    (advanceXfer n d).dphase = .stOut ∨ (advanceXfer n d).dphase = .inLoop := ite_eq_or_eq ..

/-- SET_REPORT's data stage ends or goes on (R263). -/
theorem drainPacket_dphase (s : State) :
    (drainPacket s).disp.dphase = .stIn ∨ (drainPacket s).disp.dphase = .outDrain := by
  unfold drainPacket
  dsimp only
  split
  · exact .inl rfl
  · exact .inr rfl

/-- What every operation but POR does to the phase. -/
theorem exec_phaseMove {i : Instr} {s t : State} (hpor : i ≠ .por) (h : exec i s = .next t) :
    PhaseMove i s.disp.dphase t.disp.dphase := by
  have stay (hdisp : t.disp = s.disp) : PhaseMove i s.disp.dphase t.disp.dphase := by
    rw [hdisp]
    exact phaseMove_stay i _
  obtain hreq | hout | hmem := format_cases i
  · obtain ⟨⟨hidle, -, -⟩, -, -, hstarted⟩ := request_eq_next hreq h
    rw [hidle]
    exact phaseMove_start (.inr hreq) hstarted
  · exact stay (outside_eq_next hout h).2.1
  · simp only [List.cons_append, List.nil_append, List.mem_cons, List.not_mem_nil, or_false] at hmem
    obtain rfl | rfl | rfl | rfl | rfl | rfl | rfl | rfl | rfl | rfl | rfl | rfl | rfl := hmem
    · exact absurd rfl hpor
    · obtain ⟨-, rfl⟩ := eor_eq_next h
      exact stay (by simp)
    · obtain ⟨-, rfl⟩ := sof_eq_next h
      exact stay rfl
    · obtain ⟨⟨-, hidle, -⟩, ⟨-, rfl⟩ | ⟨draws, rq, -, -, -, hstarted⟩⟩ := comm_eq_next h
      · exact stay rfl
      · rw [hidle]
        exact phaseMove_start (.inl rfl) hstarted
    · obtain ⟨⟨hphase, -⟩, -, rfl⟩ := pFxTx_eq_next h
      rw [hphase]
      exact phaseMove_step (by decide) rfl (by simp)
    · obtain ⟨⟨hphase, -⟩, hsel, ⟨-, rfl⟩ | ⟨-, -, rfl⟩ | ⟨-, -, -, hchunk⟩⟩ := pInLoop_eq_next h
      · rw [hphase]
        exact phaseMove_step (by decide) rfl (by simp)
      · rw [hphase]
        exact phaseMove_step (by decide) rfl (by simp)
      · obtain ⟨bytes, -, rfl⟩ := sendChunk_eq_next hsel hchunk
        rw [hphase]
        obtain hnext | hnext := advanceXfer_dphase (min s.disp.xfRem.toNat Config.ep0Size) s.disp
        all_goals
          dsimp only
          rw [hnext]
          exact phaseMove_step (by decide) rfl (by simp)
    · obtain ⟨⟨hphase, -⟩, -, rfl⟩ := pStOut_eq_next h
      rw [hphase]
      exact phaseMove_step (by decide) rfl (by simp)
    · obtain ⟨⟨hphase, -⟩, -, rfl⟩ := pStIn_eq_next h
      rw [hphase]
      obtain ⟨-, hnext | hnext⟩ := applyPost_leaves (clearSendFlag s)
      all_goals
        rw [hnext]
        exact phaseMove_step (by decide) rfl (by simp)
    · obtain ⟨⟨hphase, -⟩, -, a, -, rfl⟩ := pAddrAck_eq_next h
      rw [hphase]
      exact phaseMove_step (by decide) rfl (by simp)
    · obtain ⟨⟨hphase, -⟩, -, ⟨-, rfl⟩ | ⟨-, -, rfl⟩⟩ := pOutDrain_eq_next h
      · rw [hphase]
        exact phaseMove_step (by decide) rfl (by simp)
      · rw [hphase]
        obtain hnext | hnext := drainPacket_dphase s
        all_goals
          rw [hnext]
          exact phaseMove_step (by decide) rfl (by simp)
    · exact stay (scanRow_frame h).disp
    · obtain ⟨-, rfl⟩ := getState_eq_next h
      exact stay rfl
    · obtain ⟨-, u, hu, rfl⟩ := reportSend_eq_next h
      obtain ⟨sel, ep0, kbd, ctl, rfl, -⟩ := trySend_leaves hu
      exact stay rfl

/-- Settles O55: every operation but POR moves the phase as `PhaseMove` says. -/
theorem phaseGraph : Obligations.PhaseGraph := fun _ _ _ hpor h => exec_phaseMove hpor h

/-! ## Everything else -/

/-- The elements outside the control registers whose writers spec/60 R350 names are as before. -/
structure Kept (s t : State) : Prop where
  address : (t.uaddr, t.adden) = (s.uaddr, s.adden)
  matrix : t.scan.matrix = s.scan.matrix
  dbCnt : t.scan.dbCnt = s.scan.dbCnt
  krs : t.krs = s.krs
  rq : t.disp.rq = s.disp.rq
  sw : t.sw = s.sw
  par : t.par = s.par

/-- A change of one of these elements names its writer. -/
structure WrittenBy (i : Instr) (s t : State) : Prop where
  address : (t.uaddr, t.adden) ≠ (s.uaddr, s.adden) →
    i = .pAddrAck ∨ i = .busReset ∨ i = .por ∨ ∃ a, i = .writeAddress a
  arrays : t.scan.matrix ≠ s.scan.matrix ∨ t.scan.dbCnt ≠ s.scan.dbCnt → i = .scanRow ∨ i = .por
  krs : t.krs ≠ s.krs → i = .getState ∨ i = .por
  rq : t.disp.rq ≠ s.disp.rq → i = .comm ∨ i = .por
  sw : t.sw ≠ s.sw → ∃ r c v, i = .keys r c v
  par : t.par = s.par

theorem Kept.writtenBy {s t : State} (h : Kept s t) (i : Instr) : WrittenBy i s t where
  address hne := absurd h.address hne
  arrays hne := (hne.elim (absurd h.matrix) (absurd h.dbCnt))
  krs hne := absurd h.krs hne
  rq hne := absurd h.rq hne
  sw hne := absurd h.sw hne
  par := h.par

/-- The address registers and the switches, which the environment and the primitives reach, are as before. -/
structure AddressAndSwitchesKept (s t : State) : Prop where
  address : (t.uaddr, t.adden) = (s.uaddr, s.adden)
  sw : t.sw = s.sw

/-- A move of the environment writes the address registers only at a bus reset, the switches only by KEYS. -/
theorem envMove_writes {i : Instr} (hi : i.format = .envMove) {s t : State} (h : exec i s = .next t) :
    AddressAndSwitchesKept s t ∨ (i = .busReset ∧ t.sw = s.sw) ∨
      ((∃ r c v, i = .keys r c v) ∧ (t.uaddr, t.adden) = (s.uaddr, s.adden)) := by
  cases envMove_eq_next hi h
  case busReset => exact .inr (.inl ⟨rfl, rfl⟩)
  case keys r c v => exact .inr (.inr ⟨⟨r, c, v, rfl⟩, rfl⟩)
  case setup | in0 | out | sofTick | spuriousComm | inK | stalled => exact .inl ⟨rfl, rfl⟩

theorem setSelectedFifo_kept (bs : List Byte) (s : State) : AddressAndSwitchesKept s (setSelectedFifo bs s) := by
  unfold setSelectedFifo
  split <;> exact ⟨rfl, rfl⟩

theorem fifoRead_kept (s : State) : AddressAndSwitchesKept s (fifoRead s).2 := by
  unfold fifoRead
  split
  · exact setSelectedFifo_kept _ s
  · exact ⟨rfl, rfl⟩

theorem onEp0_next_iff {f : State → State} {s t : State} :
    onEp0 (fun s => .next (f s)) s = .next t ↔ s.epSel = 0 ∧ f s = t := by
  simp [onEp0]

theorem onKbdEp_next_iff {f : State → State} {s t : State} :
    onKbdEp (fun s => .next (f s)) s = .next t ↔ s.epSel = s.par.kbdEp ∧ f s = t := by
  simp [onKbdEp]

/-- A primitive writes the address registers only as `write_address`, and never the switches. -/
theorem primitive_writes {i : Instr} (hi : i.format = .primitive) {s t : State} (h : exec i s = .next t) :
    AddressAndSwitchesKept s t ∨ ((∃ a, i = .writeAddress a) ∧ t.sw = s.sw) := by
  cases i
  case writeAddress a => cases h; exact .inr ⟨⟨a, rfl⟩, rfl⟩
  all_goals left
  case selectEndpoint n => cases h; exact ⟨rfl, rfl⟩
  case isSetupPending | isSendReady | isReceivePending | clearSetupFlag | clearSendFlag | clearReceiveFlag | stall =>
    obtain ⟨-, rfl⟩ := onEp0_next_iff.mp h
    exact ⟨rfl, rfl⟩
  case kbdReady | kbdRearm =>
    obtain ⟨-, rfl⟩ := onKbdEp_next_iff.mp h
    exact ⟨rfl, rfl⟩
  case fifoRead =>
    obtain ⟨-, h⟩ := guarded_eq_next_iff.mp h
    cases h
    exact ⟨(fifoRead_kept s).address, (fifoRead_kept s).sw⟩
  case fifoWrite b =>
    obtain ⟨-, h⟩ := guarded_eq_next_iff.mp h
    unfold fifoWrite at h
    split at h
    case isTrue => cases h; exact setSelectedFifo_kept _ s
    case isFalse => cases h
  case syncStatusStage dir =>
    have hsel : s.epSel = 0 := by
      change execSyncStatusStage dir s = _ at h
      unfold execSyncStatusStage at h
      exact (onEp0_eq_next h).1
    cases dir
    case d2h =>
      rw [exec_syncStatusStage_d2h hsel, guarded_eq_next_iff] at h
      cases h.2
      exact ⟨rfl, rfl⟩
    case h2d =>
      rw [exec_syncStatusStage_h2d hsel, guarded_eq_next_iff] at h
      cases h.2
      exact ⟨rfl, rfl⟩
  case configureEndpoint e =>
    obtain ⟨-, h⟩ := guarded_eq_next_iff.mp h
    cases h
    exact ⟨by simp, by simp⟩
  case setDirectionSetLevelReadLevel op =>
    cases op
    all_goals
      obtain ⟨-, h⟩ := guarded_eq_next_iff.mp h
      cases h
      exact ⟨rfl, rfl⟩
  all_goals cases hi

/-- The environment and the primitives write the address registers and the switches by their own operations. -/
theorem outside_writtenBy {i : Instr} (hi : i.format = .envMove ∨ i.format = .primitive) {s t : State}
    (h : exec i s = .next t) : WrittenBy i s t := by
  obtain ⟨-, hdisp, hscan, hkrs, hpar⟩ := outside_eq_next hi h
  have parts (haddr) (hsw) : WrittenBy i s t :=
    ⟨haddr, fun hne => by simp [hscan] at hne, fun hne => absurd hkrs hne, fun hne => by simp [hdisp] at hne, hsw, hpar⟩
  obtain henv | hprim := hi
  · obtain ⟨haddr, hsw⟩ | ⟨rfl, hsw⟩ | ⟨hkeys, haddr⟩ := envMove_writes henv h
    · exact parts (fun hne => absurd haddr hne) (fun hne => absurd hsw hne)
    · exact parts (fun _ => .inr (.inl rfl)) (fun hne => absurd hsw hne)
    · exact parts (fun hne => absurd haddr hne) (fun _ => hkeys)
  · obtain ⟨haddr, hsw⟩ | ⟨hwrite, hsw⟩ := primitive_writes hprim h
    · exact parts (fun hne => absurd haddr hne) (fun hne => absurd hsw hne)
    · exact parts (fun _ => .inr (.inr (.inr hwrite))) (fun hne => absurd hsw hne)

/-- A request keeps them all: the latch is written before its handler runs. -/
theorem request_kept {i : Instr} (hi : i.isRequest = true) {s t : State} (h : exec i s = .next t) : Kept s t := by
  obtain ⟨-, ⟨b, hframe⟩, hlatch, -⟩ := request_eq_next hi h
  generalize t.disp = d at hframe hlatch
  subst hframe
  exact ⟨rfl, rfl, rfl, rfl, hlatch, rfl, rfl⟩

theorem drainPacket_kept (s : State) : Kept s (drainPacket s) := by
  unfold drainPacket
  dsimp only
  split <;> exact ⟨rfl, rfl, rfl, rfl, rfl, rfl, rfl⟩

/-- The steps of the block write them as `WrittenBy` says. -/
theorem exec_writtenBy {i : Instr} {s t : State} (h : exec i s = .next t) : WrittenBy i s t := by
  have kept (hkept : Kept s t) : WrittenBy i s t := hkept.writtenBy i
  obtain hreq | hout | hmem := format_cases i
  · exact kept (request_kept hreq h)
  · exact outside_writtenBy hout h
  · simp only [List.cons_append, List.nil_append, List.mem_cons, List.not_mem_nil, or_false] at hmem
    obtain rfl | rfl | rfl | rfl | rfl | rfl | rfl | rfl | rfl | rfl | rfl | rfl | rfl := hmem
    · cases h
      exact ⟨fun _ => by simp, fun _ => .inr rfl, fun _ => .inr rfl, fun _ => .inr rfl, fun hne => absurd rfl hne, rfl⟩
    · obtain ⟨-, rfl⟩ := eor_eq_next h
      exact kept ⟨by simp, by simp, by simp, by simp, by simp, by simp, by simp⟩
    · obtain ⟨-, rfl⟩ := sof_eq_next h
      exact kept ⟨rfl, rfl, rfl, rfl, rfl, rfl, rfl⟩
    · obtain ⟨-, ⟨-, rfl⟩ | ⟨draws, rq, -, ⟨b, hframe⟩, -, -⟩⟩ := comm_eq_next h
      · exact kept ⟨rfl, rfl, rfl, rfl, rfl, rfl, rfl⟩
      · generalize t.disp = d at hframe
        subst hframe
        exact ⟨fun hne => absurd rfl hne, fun hne => hne.elim (absurd rfl) (absurd rfl), fun hne => absurd rfl hne,
          fun _ => .inl rfl, fun hne => absurd rfl hne, rfl⟩
    · obtain ⟨-, -, rfl⟩ := pFxTx_eq_next h
      exact kept ⟨rfl, rfl, rfl, rfl, rfl, rfl, rfl⟩
    · obtain ⟨-, hsel, ⟨-, rfl⟩ | ⟨-, -, rfl⟩ | ⟨-, -, -, hchunk⟩⟩ := pInLoop_eq_next h
      · exact kept ⟨rfl, rfl, rfl, rfl, rfl, rfl, rfl⟩
      · exact kept ⟨rfl, rfl, rfl, rfl, rfl, rfl, rfl⟩
      · obtain ⟨bytes, -, rfl⟩ := sendChunk_eq_next hsel hchunk
        exact kept ⟨rfl, rfl, rfl, rfl, rfl, rfl, rfl⟩
    · obtain ⟨-, -, rfl⟩ := pStOut_eq_next h
      exact kept ⟨rfl, rfl, rfl, rfl, rfl, rfl, rfl⟩
    · obtain ⟨-, -, rfl⟩ := pStIn_eq_next h
      obtain ⟨⟨hdisp, hscan, hkrs, huaddr, hadden, hsw, hpar⟩, -⟩ := applyPost_leaves (clearSendFlag s)
      exact kept ⟨by simp [huaddr, hadden], by simp [hscan], by simp [hscan], hkrs,
        congrArg (·.rq) hdisp, hsw, hpar⟩
    · obtain ⟨-, -, a, -, rfl⟩ := pAddrAck_eq_next h
      exact ⟨fun _ => .inl rfl, fun hne => hne.elim (absurd rfl) (absurd rfl), fun hne => absurd rfl hne,
        fun hne => absurd rfl hne, fun hne => absurd rfl hne, rfl⟩
    · obtain ⟨-, -, ⟨-, rfl⟩ | ⟨-, -, rfl⟩⟩ := pOutDrain_eq_next h
      · exact kept ⟨rfl, rfl, rfl, rfl, rfl, rfl, rfl⟩
      · exact kept (drainPacket_kept s)
    · obtain ⟨⟨-, hpar, huaddr, hadden, hsw, hkrs, -⟩, hdisp, -, -, -⟩ := scanRow_frame h
      exact ⟨fun hne => by simp [huaddr, hadden] at hne, fun _ => .inl rfl, fun hne => absurd hkrs hne,
        fun hne => by simp [hdisp] at hne, fun hne => absurd hsw hne, hpar⟩
    · obtain ⟨-, rfl⟩ := getState_eq_next h
      exact ⟨fun hne => absurd rfl hne, fun hne => hne.elim (absurd rfl) (absurd rfl), fun _ => .inl rfl,
        fun hne => absurd rfl hne, fun hne => absurd rfl hne, rfl⟩
    · obtain ⟨-, u, hu, rfl⟩ := reportSend_eq_next h
      obtain ⟨sel, ep0, kbd, ctl, rfl, -⟩ := trySend_leaves hu
      exact kept ⟨rfl, rfl, rfl, rfl, rfl, rfl, rfl⟩

/-- `cfg_value` and `protocol_mode` are written by the status stage and POR only. -/
theorem ControlStep.writtenBy {i : Instr} {s : State} {c : Control} (h : ControlStep s i c) :
    (c.cfgValue ≠ s.ctl.cfgValue → i = .pStIn ∨ i = .por) ∧
    (c.protocolMode ≠ s.ctl.protocolMode → i = .pStIn ∨ i = .por) := by
  cases h
  case por => exact ⟨fun _ => .inr rfl, fun _ => .inr rfl⟩
  case keep | eor | sof | addrAck | report => exact ⟨fun hne => absurd rfl hne, fun hne => absurd rfl hne⟩
  all_goals exact ⟨fun _ => .inl rfl, fun _ => .inl rfl⟩

/-- Settles O58: the writers of the control registers (`ControlStep`) and of everything else (`WrittenBy`). -/
theorem whoWritesWhat : Obligations.WhoWritesWhat := by
  intro i s t h
  obtain ⟨haddr, harrays, hkrs, hrq, hsw, hpar⟩ := exec_writtenBy h
  obtain ⟨hcfg, hproto⟩ := (exec_controlStep h).writtenBy
  exact ⟨haddr, harrays, hkrs, hrq, hcfg, hproto, hsw, hpar⟩

end Sys2Proof.Machine
end

section
/-! SUPPORT. A chunked transfer whose packets the host collects (spec/43 R248): one turn of P_IN_LOOP and HOST_IN0, and
the induction over the turns. -/

namespace Sys2Proof.Machine

/-! ## The packets -/

theorem packets_nil_flatten (fuel : Nat) (zlp : Bool) : (packets fuel [] zlp).flatten = [] := by
  cases fuel with
  | zero => rfl
  | succ fuel => cases zlp <;> rfl

/-- The packets are the bytes, cut into pieces. -/
theorem packets_flatten (fuel : Nat) (bytes : List Byte) (zlp : Bool) (h : bytes.length ≤ 64 * fuel) :
    (packets fuel bytes zlp).flatten = bytes := by
  induction fuel generalizing bytes with
  | zero =>
    have hnil : bytes = [] := List.length_eq_zero_iff.mp (by omega)
    rw [hnil]
    rfl
  | succ fuel ih =>
    have hdrop : (bytes.drop 64).length ≤ 64 * fuel := by
      rw [List.length_drop]
      omega
    by_cases hnil : bytes = []
    · rw [hnil, packets_nil_flatten]
    · rw [packets, if_neg hnil, List.flatten_cons, ih _ hdrop, List.take_append_drop]

/-! ## One turn -/

/-- The bytes that a transfer still owes. -/
def owed (s : State) : List Byte := ((sourceBytes s s.disp.xfSrc).drop s.disp.xfPtr.toNat).take s.disp.xfRem.toNat

/-- A transfer that nothing cuts short: the loop may send, and endpoint 0 is empty and not stalled. -/
structure Sending (s : State) : Prop where
  phase : s.disp.dphase = .inLoop
  selected : s.epSel = 0
  cfg : s.ep0.cfg = true
  setup : s.ep0.setupPend = false
  rx : s.ep0.rxPend = false
  stall : s.ep0.stallReq = false
  ready : s.ep0.txReady = true
  fifo : s.ep0.fifo = []

/-- The transfer registers point inside the source, and the zero-length packet is owed after whole packets only. -/
structure TransferInside (s : State) : Prop where
  owes : s.disp.xfRem ≠ 0 ∨ s.disp.xfZlp = true
  zlp : s.disp.xfZlp = true → s.disp.xfRem.toNat % 64 = 0
  inside : s.disp.xfPtr.toNat + s.disp.xfRem.toNat ≤ (sourceBytes s s.disp.xfSrc).length
  short : (sourceBytes s s.disp.xfSrc).length ≤ 65535

/-- The state after P_IN_LOOP sent a packet and HOST_IN0 collected it. -/
def afterTurn (s : State) : State :=
  { s with
    ep0 := { s.ep0 with inPkt := none, txReady := true }
    disp := advanceXfer (min s.disp.xfRem.toNat 64) s.disp
    hostTrace := s.hostTrace ++ [.in0 ((owed s).take 64)] }

/-- One turn of a transfer that the host collects. -/
theorem collectTransfer_turn {s : State} (h : Sending s) (hx : TransferInside s) (fuel : Nat) :
    collectTransfer (fuel + 1) s = collectTransfer fuel (afterTurn s) := by
  obtain ⟨hphase, hsel, hcfg, hsetup, hrx, hstall, hready, hfifo⟩ := h
  have hchunk : ((sourceBytes s s.disp.xfSrc).drop s.disp.xfPtr.toNat).take (min s.disp.xfRem.toNat 64) =
      (owed s).take 64 := by
    rw [owed, List.take_take, Nat.min_comm]
  have hin : s.disp.xfPtr.toNat + min s.disp.xfRem.toNat 64 ≤ (sourceBytes s s.disp.xfSrc).length := by
    have := hx.inside
    omega
  have hsend := (exec_pInLoop_send hphase hsel hsetup hrx hready).trans (sendChunk_next hsel hfifo hin)
  rw [hchunk] at hsend
  rw [collectTransfer, if_pos hphase, hsend, andThen_next, exec_hostIn0_some rfl, if_pos ⟨hcfg, hstall⟩, andThen_next]
  rfl

/-- Once the data stage is over the host has nothing more to collect. -/
theorem collectTransfer_done {s : State} (h : s.disp.dphase ≠ .inLoop) (fuel : Nat) :
    collectTransfer fuel s = .next s := by
  cases fuel with
  | zero => rfl
  | succ fuel => rw [collectTransfer, if_neg h]

theorem sourceBytes_afterTurn (s : State) (src : XferSource) : sourceBytes (afterTurn s) src = sourceBytes s src := by
  cases src <;> rfl

/-! ## The turns -/

/-- The next packet is the last one. -/
def LastTurn (s : State) : Prop := s.disp.xfRem.toNat ≤ 64 ∧ (s.disp.xfRem.toNat = 0 ∨ s.disp.xfZlp = false)

/-- After the last packet the block waits for the status OUT (R244). -/
theorem afterTurn_last {s : State} (h : LastTurn s) : (afterTurn s).disp.dphase = .stOut := by
  obtain ⟨hrem, hlast⟩ := h
  have hmin : min s.disp.xfRem.toNat 64 = s.disp.xfRem.toNat := Nat.min_eq_left hrem
  change (advanceXfer (min s.disp.xfRem.toNat 64) s.disp).dphase = _
  rw [hmin, advanceXfer_eq _ _ (Nat.le_refl _)]
  exact if_pos ⟨rfl, hlast⟩

/-- The last packet carries all that is owed, and only a zero-length packet carries nothing. -/
theorem packets_last {s : State} (hx : TransferInside s) (h : LastTurn s) (fuel : Nat) :
    packets (fuel + 1) (owed s) s.disp.xfZlp = [(owed s).take 64] := by
  obtain ⟨hrem, hlast⟩ := h
  have hlen : (owed s).length ≤ 64 := (List.length_take_le ..).trans hrem
  by_cases hnil : owed s = []
  · have hzero : s.disp.xfRem.toNat = 0 := by
      have hlen0 := congrArg List.length hnil
      have hin := hx.inside
      simp only [owed, List.length_take, List.length_drop, List.length_nil] at hlen0
      omega
    have hzlp : s.disp.xfZlp = true := hx.owes.resolve_left fun hne => hne (BitVec.eq_of_toNat_eq hzero)
    rw [packets, if_pos hnil, hzlp, hnil]
    rfl
  · have hne : s.disp.xfRem.toNat ≠ 0 := fun hzero => hnil (by rw [owed, hzero, List.take_zero])
    have hdrop : (owed s).drop 64 = [] := List.drop_of_length_le hlen
    rw [packets, if_neg hnil, hlast.resolve_left hne, hdrop]
    cases fuel <;> rfl

/-- Before the last packet at least 64 bytes are owed. -/
theorem sixtyfour_le_of_not_lastTurn {s : State} (hx : TransferInside s) (h : ¬LastTurn s) :
    64 ≤ s.disp.xfRem.toNat := by
  by_contra hlt
  have hopen : ¬(s.disp.xfRem.toNat = 0 ∨ s.disp.xfZlp = false) := fun hlast => h ⟨by omega, hlast⟩
  rw [not_or] at hopen
  obtain ⟨hne, hzlp⟩ := hopen
  have := hx.zlp (by simpa using hzlp)
  omega

/-- The transfer registers after a packet of 64 bytes that is not the last one. -/
theorem afterTurn_more {s : State} (hx : TransferInside s) (h : ¬LastTurn s) :
    (afterTurn s).disp = { s.disp with
      xfPtr := BitVec.ofNat 16 (s.disp.xfPtr.toNat + 64), xfRem := BitVec.ofNat 16 (s.disp.xfRem.toNat - 64)
      xfZlp := s.disp.xfZlp, dphase := .inLoop } := by
  have hle := sixtyfour_le_of_not_lastTurn hx h
  have hmore : ¬(s.disp.xfRem.toNat = 64 ∧ (64 = 0 ∨ s.disp.xfZlp = false)) := fun ⟨heq, hzlp⟩ =>
    h ⟨heq.le, hzlp.imp nofun id⟩
  change advanceXfer (min s.disp.xfRem.toNat 64) s.disp = _
  rw [Nat.min_eq_right hle, advanceXfer_eq _ _ hle, if_neg hmore]
  rfl

/-- The next turn starts as this one did, with 64 bytes fewer to send. -/
theorem afterTurn_inside {s : State} (hx : TransferInside s) (h : ¬LastTurn s) :
    TransferInside (afterTurn s) ∧ (afterTurn s).disp.xfRem.toNat = s.disp.xfRem.toNat - 64 ∧
      (afterTurn s).disp.xfZlp = s.disp.xfZlp ∧ owed (afterTurn s) = (owed s).drop 64 := by
  have hle := sixtyfour_le_of_not_lastTurn hx h
  have hdisp := afterTurn_more hx h
  obtain ⟨howes, hzlp, hinside, hshort⟩ := hx
  have hptr : (afterTurn s).disp.xfPtr.toNat = s.disp.xfPtr.toNat + 64 := by
    rw [hdisp]
    simp only [BitVec.toNat_ofNat]
    omega
  have hrem : (afterTurn s).disp.xfRem.toNat = s.disp.xfRem.toNat - 64 := by
    rw [hdisp]
    simp only [BitVec.toNat_ofNat]
    omega
  have hkeep : (afterTurn s).disp.xfZlp = s.disp.xfZlp := by rw [hdisp]
  have hsrc : sourceBytes (afterTurn s) (afterTurn s).disp.xfSrc = sourceBytes s s.disp.xfSrc := by
    rw [sourceBytes_afterTurn, hdisp]
  refine ⟨⟨?_, fun hz => ?_, ?_, by rw [hsrc]; exact hshort⟩, hrem, hkeep, ?_⟩
  · rw [hkeep]
    by_cases heq : s.disp.xfRem.toNat = 64
    · right
      by_contra hz
      exact h ⟨heq.le, .inr (by simpa using hz)⟩
    · left
      intro h0
      have hzero : (afterTurn s).disp.xfRem.toNat = 0 := by rw [h0]; rfl
      omega
  · rw [hkeep] at hz
    have := hzlp hz
    omega
  · rw [hsrc, hptr, hrem]
    omega
  · rw [owed, owed, hsrc, hptr, hrem, List.drop_take, List.drop_drop]

theorem afterTurn_sending {s : State} (h : Sending s) (hphase : (afterTurn s).disp.dphase = .inLoop) :
    Sending (afterTurn s) := { h with phase := hphase, ready := rfl }

/-- The host that collects every packet sees the framing of R248. -/
theorem collectTransfer_delivers (fuel : Nat) {s : State} (h : Sending s) (hx : TransferInside s)
    (hfuel : s.disp.xfRem.toNat / 64 < fuel) :
    ∃ t, collectTransfer fuel s = .next t ∧ t.disp.dphase = .stOut ∧
      t.hostTrace = s.hostTrace ++ (packets fuel (owed s) s.disp.xfZlp).map .in0 := by
  induction fuel generalizing s with
  | zero => exact absurd hfuel (Nat.not_lt_zero _)
  | succ fuel ih =>
    rw [collectTransfer_turn h hx]
    by_cases hlast : LastTurn s
    · have hphase := afterTurn_last hlast
      refine ⟨afterTurn s, collectTransfer_done (by rw [hphase]; decide) fuel, hphase, ?_⟩
      rw [packets_last hx hlast]
      rfl
    · obtain ⟨hx', hrem, hzlp, howed⟩ := afterTurn_inside hx hlast
      have hle := sixtyfour_le_of_not_lastTurn hx hlast
      have hphase : (afterTurn s).disp.dphase = .inLoop := by rw [afterTurn_more hx hlast]
      have hne : owed s ≠ [] := by
        intro hnil
        have hlen := congrArg List.length hnil
        have hin := hx.inside
        simp only [owed, List.length_take, List.length_drop, List.length_nil] at hlen
        omega
      obtain ⟨t, ht, hend, htrace⟩ := ih (afterTurn_sending h hphase) hx' (by omega)
      refine ⟨t, ht, hend, ?_⟩
      rw [htrace, howed, hzlp, packets, if_neg hne, List.map_cons]
      exact List.append_assoc s.hostTrace [_] _

/-- Settles O59: the framing of the turns, whose packets are the owed bytes cut into pieces. -/
theorem transferDeliversTheSource : Obligations.TransferDeliversTheSource := by
  intro s hphase hsel hcfg hsetup hrx hstall hready hfifo howes hzlp hinside hshort n bytes
  obtain ⟨t, ht, hend, htrace⟩ := collectTransfer_delivers n
    ⟨hphase, hsel, hcfg, hsetup, hrx, hstall, hready, hfifo⟩ ⟨howes, hzlp, hinside, hshort⟩ (by omega)
  have hlen : bytes.length ≤ 64 * n := (List.length_take_le ..).trans (by omega)
  exact ⟨t, ht, hend, htrace, packets_flatten n bytes _ hlen⟩

end Sys2Proof.Machine
end
